-- ==== Sys2Proof/Word.lean ====
section
/-! DEFINITION. The widths of the machine (00_scope.md R6): bytes, 16-bit words, 16-bit addresses. -/

namespace Sys2Proof

/-- An 8-bit value: an r8 register, an n8 or e8 operand, one byte of memory (R6). -/
abbrev Byte := BitVec 8

/-- A 16-bit value: an r16 register, SP, PC, an n16 operand (R6). -/
abbrev Word := BitVec 16

/-- A 16-bit address, $0000 to $FFFF (20_memory.md R60). -/
abbrev Addr := BitVec 16

end Sys2Proof
end

