-- ==== Sys2Proof/Machine/Bits.lean ====
section
/-! DEFINITION. Bit fields, byte order and extension (00_scope.md R7, R8). -/

namespace Sys2Proof

/-- `hi8(w)` = `w[15:8]` (R7). -/
def hi8 (w : Word) : Byte := w.extractLsb' 8 8

/-- `lo8(w)` = `w[7:0]` (R7). -/
def lo8 (w : Word) : Byte := w.extractLsb' 0 8

/-- The concatenation of two bytes, `hi` the more significant (R7). -/
def joinBytes (hi lo : Byte) : Word := hi ++ lo

/-- `sext_16` (R8): two's complement extension of an e8. -/
def sext16 (b : Byte) : Word := b.signExtend 16

/-- `zext_16` (R8). -/
def zext16 (b : Byte) : Word := b.zeroExtend 16

end Sys2Proof
end

