-- ==== Sys2Proof/Syntax.lean ====
section
/-! DEFINITION. The instructions: one constructor per row of spec/opcode_table.json, with its operands
as the legend's classes (00_scope.md R9). `Ind` in a name is the memory operand `[HL]`. -/

namespace Sys2Proof

/-- An r8 operand: one of the 8-bit registers. F is not one (R9, 10_state.md R20). -/
inductive Reg8 where
  | a | b | c | d | e | h | l
deriving DecidableEq, Repr

/-- An r16 operand: one of the register pairs. AF, SP and PC are not r16 (R9, 10_state.md R22). -/
inductive Reg16 where
  | bc | de | hl
deriving DecidableEq, Repr

/-- A condition code (48_control.md R265). -/
inductive Cond where
  | nz | z | nc | c
deriving DecidableEq, Repr

/-- The instructions. -/
inductive Instr where
  /-- NOP (R300). -/
  | nop
  /-- LD r16,n16 (R250). -/
  | ldR16N16 (p : Reg16) (n : Word)
  /-- LD SP,n16 (R251). -/
  | ldSpN16 (n : Word)
  /-- LD [BC],A (R127). -/
  | ldBcA
  /-- LD [DE],A (R128). -/
  | ldDeA
  /-- LD [HL+],A (R137). -/
  | ldHliA
  /-- LD [HL-],A (R138). -/
  | ldHldA
  /-- LD A,[BC] (R125). -/
  | ldABc
  /-- LD A,[DE] (R126). -/
  | ldADe
  /-- LD A,[HL+] (R135). -/
  | ldAHli
  /-- LD A,[HL-] (R136). -/
  | ldAHld
  /-- INC r16 (R194). -/
  | incR16 (p : Reg16)
  /-- INC SP (R195). -/
  | incSp
  /-- DEC r16 (R196). -/
  | decR16 (p : Reg16)
  /-- DEC SP (R197). -/
  | decSp
  /-- INC r8 (R190). -/
  | incR8 (r : Reg8)
  /-- INC [HL] (R191). -/
  | incInd
  /-- DEC r8 (R192). -/
  | decR8 (r : Reg8)
  /-- DEC [HL] (R193). -/
  | decInd
  /-- LD r8,n8 (R121). -/
  | ldR8N8 (r : Reg8) (n : Byte)
  /-- LD [HL],n8 (R124). -/
  | ldIndN8 (n : Byte)
  /-- RLCA (R151). -/
  | rlca
  /-- RRCA (R153). -/
  | rrca
  /-- RLA (R150). -/
  | rla
  /-- RRA (R152). -/
  | rra
  /-- DAA (R290). -/
  | daa
  /-- CPL (R229). -/
  | cpl
  /-- SCF (R241). -/
  | scf
  /-- CCF (R242). -/
  | ccf
  /-- LD [n16],SP (R252). -/
  | ldN16Sp (n : Word)
  /-- STOP, with its second byte (R298). -/
  | stop (b : Byte)
  /-- JR n16, as stored: an e8 (R268). -/
  | jr (e : Byte)
  /-- JR cc,n16, as stored: an e8 (R269). -/
  | jrCc (cc : Cond) (e : Byte)
  /-- ADD HL,r16 (R258). -/
  | addHlR16 (p : Reg16)
  /-- ADD HL,SP (R259). -/
  | addHlSp
  /-- LD r8,r8' (R120). -/
  | ldR8R8 (dst src : Reg8)
  /-- LD r8,[HL] (R122). -/
  | ldR8Ind (r : Reg8)
  /-- LD [HL],r8 (R123). -/
  | ldIndR8 (r : Reg8)
  /-- HALT (R296). -/
  | halt
  /-- ADD r8 (R201). -/
  | addR8 (r : Reg8)
  /-- ADD [HL] (R202). -/
  | addInd
  /-- ADD n8 (R200). -/
  | addN8 (n : Byte)
  /-- ADC r8 (R204). -/
  | adcR8 (r : Reg8)
  /-- ADC [HL] (R205). -/
  | adcInd
  /-- ADC n8 (R203). -/
  | adcN8 (n : Byte)
  /-- SUB r8 (R207). -/
  | subR8 (r : Reg8)
  /-- SUB [HL] (R208). -/
  | subInd
  /-- SUB n8 (R206). -/
  | subN8 (n : Byte)
  /-- SBC r8 (R210). -/
  | sbcR8 (r : Reg8)
  /-- SBC [HL] (R211). -/
  | sbcInd
  /-- SBC n8 (R209). -/
  | sbcN8 (n : Byte)
  /-- AND r8 (R221). -/
  | andR8 (r : Reg8)
  /-- AND [HL] (R222). -/
  | andInd
  /-- AND n8 (R220). -/
  | andN8 (n : Byte)
  /-- XOR r8 (R227). -/
  | xorR8 (r : Reg8)
  /-- XOR [HL] (R228). -/
  | xorInd
  /-- XOR n8 (R226). -/
  | xorN8 (n : Byte)
  /-- OR r8 (R224). -/
  | orR8 (r : Reg8)
  /-- OR [HL] (R225). -/
  | orInd
  /-- OR n8 (R223). -/
  | orN8 (n : Byte)
  /-- CP r8 (R213). -/
  | cpR8 (r : Reg8)
  /-- CP [HL] (R214). -/
  | cpInd
  /-- CP n8 (R212). -/
  | cpN8 (n : Byte)
  /-- RET cc (R275). -/
  | retCc (cc : Cond)
  /-- RET (R274). -/
  | ret
  /-- RETI (R276). -/
  | reti
  /-- POP r16 (R183). -/
  | popR16 (p : Reg16)
  /-- POP AF (R185). -/
  | popAf
  /-- PUSH r16 (R182). -/
  | pushR16 (p : Reg16)
  /-- PUSH AF (R184). -/
  | pushAf
  /-- JP cc,n16 (R267). -/
  | jpCc (cc : Cond) (n : Word)
  /-- JP n16 (R266). -/
  | jp (n : Word)
  /-- JP HL (R270). -/
  | jpHl
  /-- CALL cc,n16 (R272). -/
  | callCc (cc : Cond) (n : Word)
  /-- CALL n16 (R271). -/
  | call (n : Word)
  /-- RST 8*t (R273). -/
  | rst (t : BitVec 3)
  /-- LDH [n8],A (R131). -/
  | ldhN8A (n : Byte)
  /-- LDH A,[n8] (R130). -/
  | ldhAN8 (n : Byte)
  /-- LDH [C],A (R133). -/
  | ldhCA
  /-- LDH A,[C] (R132). -/
  | ldhAC
  /-- LD [n16],A (R134). -/
  | ldN16A (n : Word)
  /-- LD A,[n16] (R129). -/
  | ldAN16 (n : Word)
  /-- ADD SP,e8 (R260). -/
  | addSpE8 (e : Byte)
  /-- LD HL,SP+e8 (R256). -/
  | ldHlSpE8 (e : Byte)
  /-- LD SP,HL (R253). -/
  | ldSpHl
  /-- DI (R292). -/
  | di
  /-- EI (R294). -/
  | ei
  /-- the unassigned byte $D3 (R101, R310). -/
  | illegalD3
  /-- the unassigned byte $DB (R101, R310). -/
  | illegalDB
  /-- the unassigned byte $DD (R101, R310). -/
  | illegalDD
  /-- the unassigned byte $E3 (R101, R310). -/
  | illegalE3
  /-- the unassigned byte $E4 (R101, R310). -/
  | illegalE4
  /-- the unassigned byte $EB (R101, R310). -/
  | illegalEB
  /-- the unassigned byte $EC (R101, R310). -/
  | illegalEC
  /-- the unassigned byte $ED (R101, R310). -/
  | illegalED
  /-- the unassigned byte $F4 (R101, R310). -/
  | illegalF4
  /-- the unassigned byte $FC (R101, R310). -/
  | illegalFC
  /-- the unassigned byte $FD (R101, R310). -/
  | illegalFD
  /-- RLC r8 (R156). -/
  | rlcR8 (r : Reg8)
  /-- RLC [HL] (R157). -/
  | rlcInd
  /-- RRC r8 (R160). -/
  | rrcR8 (r : Reg8)
  /-- RRC [HL] (R161). -/
  | rrcInd
  /-- RL r8 (R154). -/
  | rlR8 (r : Reg8)
  /-- RL [HL] (R155). -/
  | rlInd
  /-- RR r8 (R158). -/
  | rrR8 (r : Reg8)
  /-- RR [HL] (R159). -/
  | rrInd
  /-- SLA r8 (R162). -/
  | slaR8 (r : Reg8)
  /-- SLA [HL] (R163). -/
  | slaInd
  /-- SRA r8 (R164). -/
  | sraR8 (r : Reg8)
  /-- SRA [HL] (R165). -/
  | sraInd
  /-- SWAP r8 (R168). -/
  | swapR8 (r : Reg8)
  /-- SWAP [HL] (R169). -/
  | swapInd
  /-- SRL r8 (R166). -/
  | srlR8 (r : Reg8)
  /-- SRL [HL] (R167). -/
  | srlInd
  /-- BIT u3,r8 (R235). -/
  | bitR8 (u : BitVec 3) (r : Reg8)
  /-- BIT u3,[HL] (R236). -/
  | bitInd (u : BitVec 3)
  /-- RES u3,r8 (R237). -/
  | resR8 (u : BitVec 3) (r : Reg8)
  /-- RES u3,[HL] (R238). -/
  | resInd (u : BitVec 3)
  /-- SET u3,r8 (R239). -/
  | setR8 (u : BitVec 3) (r : Reg8)
  /-- SET u3,[HL] (R240). -/
  | setInd (u : BitVec 3)
deriving DecidableEq, Repr

end Sys2Proof
end

