-- ==== Sys2Proof/Decode.lean ====
section
/-! DEFINITION. The decoder and the encoder, both from the encoding of 30_encoding.md (R92 to R104).
`decodeBytes` reads an instruction from its bytes and is total (R104); `decode` reads it from the
front of a byte list and refuses, by name, only a list that ends inside the instruction. -/

namespace Sys2Proof

/-! ## Formats and lengths (R91, R92) -/

/-- The five formats (R92). -/
inductive Format where
  | op | opN8 | opE8 | opN16 | cb
deriving DecidableEq, Repr

/-- The number of bytes of a format (R92). -/
def Format.size : Format → Nat
  | .op => 1
  | .opN8 => 2
  | .opE8 => 2
  | .opN16 => 3
  | .cb => 2

/-- The format of each instruction (R92, the `format` column of the opcode table). -/
def Instr.format : Instr → Format
  | .nop => .op
  | .ldR16N16 _ _ => .opN16
  | .ldSpN16 _ => .opN16
  | .ldBcA => .op
  | .ldDeA => .op
  | .ldHliA => .op
  | .ldHldA => .op
  | .ldABc => .op
  | .ldADe => .op
  | .ldAHli => .op
  | .ldAHld => .op
  | .incR16 _ => .op
  | .incSp => .op
  | .decR16 _ => .op
  | .decSp => .op
  | .incR8 _ => .op
  | .incInd => .op
  | .decR8 _ => .op
  | .decInd => .op
  | .ldR8N8 _ _ => .opN8
  | .ldIndN8 _ => .opN8
  | .rlca => .op
  | .rrca => .op
  | .rla => .op
  | .rra => .op
  | .daa => .op
  | .cpl => .op
  | .scf => .op
  | .ccf => .op
  | .ldN16Sp _ => .opN16
  | .stop _ => .opN8
  | .jr _ => .opE8
  | .jrCc _ _ => .opE8
  | .addHlR16 _ => .op
  | .addHlSp => .op
  | .ldR8R8 _ _ => .op
  | .ldR8Ind _ => .op
  | .ldIndR8 _ => .op
  | .halt => .op
  | .addR8 _ => .op
  | .addInd => .op
  | .addN8 _ => .opN8
  | .adcR8 _ => .op
  | .adcInd => .op
  | .adcN8 _ => .opN8
  | .subR8 _ => .op
  | .subInd => .op
  | .subN8 _ => .opN8
  | .sbcR8 _ => .op
  | .sbcInd => .op
  | .sbcN8 _ => .opN8
  | .andR8 _ => .op
  | .andInd => .op
  | .andN8 _ => .opN8
  | .xorR8 _ => .op
  | .xorInd => .op
  | .xorN8 _ => .opN8
  | .orR8 _ => .op
  | .orInd => .op
  | .orN8 _ => .opN8
  | .cpR8 _ => .op
  | .cpInd => .op
  | .cpN8 _ => .opN8
  | .retCc _ => .op
  | .ret => .op
  | .reti => .op
  | .popR16 _ => .op
  | .popAf => .op
  | .pushR16 _ => .op
  | .pushAf => .op
  | .jpCc _ _ => .opN16
  | .jp _ => .opN16
  | .jpHl => .op
  | .callCc _ _ => .opN16
  | .call _ => .opN16
  | .rst _ => .op
  | .ldhN8A _ => .opN8
  | .ldhAN8 _ => .opN8
  | .ldhCA => .op
  | .ldhAC => .op
  | .ldN16A _ => .opN16
  | .ldAN16 _ => .opN16
  | .addSpE8 _ => .opE8
  | .ldHlSpE8 _ => .opE8
  | .ldSpHl => .op
  | .di => .op
  | .ei => .op
  | .illegalD3 => .op
  | .illegalDB => .op
  | .illegalDD => .op
  | .illegalE3 => .op
  | .illegalE4 => .op
  | .illegalEB => .op
  | .illegalEC => .op
  | .illegalED => .op
  | .illegalF4 => .op
  | .illegalFC => .op
  | .illegalFD => .op
  | .rlcR8 _ => .cb
  | .rlcInd => .cb
  | .rrcR8 _ => .cb
  | .rrcInd => .cb
  | .rlR8 _ => .cb
  | .rlInd => .cb
  | .rrR8 _ => .cb
  | .rrInd => .cb
  | .slaR8 _ => .cb
  | .slaInd => .cb
  | .sraR8 _ => .cb
  | .sraInd => .cb
  | .swapR8 _ => .cb
  | .swapInd => .cb
  | .srlR8 _ => .cb
  | .srlInd => .cb
  | .bitR8 _ _ => .cb
  | .bitInd _ => .cb
  | .resR8 _ _ => .cb
  | .resInd _ => .cb
  | .setR8 _ _ => .cb
  | .setInd _ => .cb

/-- The length of an instruction in bytes (R91). -/
def Instr.size (i : Instr) : Nat := i.format.size

/-! ## Codes (R94, R95) -/

/-- What a 3-bit register code names: an r8 or the memory byte `[HL]` (R94). -/
inductive Operand8 where
  | reg (r : Reg8)
  | ind
deriving DecidableEq, Repr

/-- The 3-bit register code (R94). -/
def Reg8.code : Reg8 → BitVec 3
  | .b => 0
  | .c => 1
  | .d => 2
  | .e => 3
  | .h => 4
  | .l => 5
  | .a => 7

/-- The operand a 3-bit code names (R94); code 6 is `[HL]`. -/
def operand8OfCode (k : BitVec 3) : Operand8 :=
  match k.toNat with
  | 0 => .reg .b
  | 1 => .reg .c
  | 2 => .reg .d
  | 3 => .reg .e
  | 4 => .reg .h
  | 5 => .reg .l
  | 6 => .ind
  | _ => .reg .a

/-- The 2-bit pair code (R95); code 3 is the SP or AF form, a row of its own. -/
def Reg16.code : Reg16 → BitVec 2
  | .bc => 0
  | .de => 1
  | .hl => 2

/-- The 2-bit condition code (R95). -/
def Cond.code : Cond → BitVec 2
  | .nz => 0
  | .z => 1
  | .nc => 2
  | .c => 3

/-- The condition a 2-bit code names (R95). -/
def condOfCode (k : BitVec 2) : Cond :=
  match k.toNat with
  | 0 => .nz
  | 1 => .z
  | 2 => .nc
  | _ => .c

/-- The row of an operand code: the r8 form or the `[HL]` form (R94). -/
def pick8 (k : BitVec 3) (onReg : Reg8 → Instr) (onInd : Instr) : Instr :=
  match operand8OfCode k with
  | .reg r => onReg r
  | .ind => onInd

/-- The row of a pair code: the r16 form, or the SP or AF form at code 3 (R95). -/
def pick16 (k : BitVec 2) (onPair : Reg16 → Instr) (other : Instr) : Instr :=
  match k.toNat with
  | 0 => onPair .bc
  | 1 => onPair .de
  | 2 => onPair .hl
  | _ => other

/-! ## The unprefixed map (R99), by the fields of R93: bits 7..6, `y` = bits 5..3, `z` = bits 2..0 -/

/-- Opcodes 00yyyzzz. -/
def decodeBlock0 (y z : BitVec 3) (n : Byte) (w : Word) : Instr :=
  let p : BitVec 2 := y.extractLsb' 1 2
  let cc := condOfCode (y.extractLsb' 0 2)
  match z.toNat with
  | 0 =>
    match y.toNat with
    | 0 => .nop
    | 1 => .ldN16Sp w
    | 2 => .stop n
    | 3 => .jr n
    | _ => .jrCc cc n
  | 1 => if y.getLsbD 0 then pick16 p .addHlR16 .addHlSp else pick16 p (.ldR16N16 · w) (.ldSpN16 w)
  | 2 =>
    match y.toNat with
    | 0 => .ldBcA
    | 1 => .ldABc
    | 2 => .ldDeA
    | 3 => .ldADe
    | 4 => .ldHliA
    | 5 => .ldAHli
    | 6 => .ldHldA
    | _ => .ldAHld
  | 3 => if y.getLsbD 0 then pick16 p .decR16 .decSp else pick16 p .incR16 .incSp
  | 4 => pick8 y .incR8 .incInd
  | 5 => pick8 y .decR8 .decInd
  | 6 => pick8 y (.ldR8N8 · n) (.ldIndN8 n)
  | _ =>
    match y.toNat with
    | 0 => .rlca
    | 1 => .rrca
    | 2 => .rla
    | 3 => .rra
    | 4 => .daa
    | 5 => .cpl
    | 6 => .scf
    | _ => .ccf

/-- Opcodes 01dddsss: the loads between r8 and `[HL]`; both codes 6 is HALT (R94). -/
def decodeBlock1 (d s : BitVec 3) : Instr :=
  match operand8OfCode d, operand8OfCode s with
  | .reg x, .reg y => .ldR8R8 x y
  | .reg x, .ind => .ldR8Ind x
  | .ind, .reg y => .ldIndR8 y
  | .ind, .ind => .halt

/-- Opcodes 10yyyzzz: arithmetic and logic on A with an r8 or `[HL]`. -/
def decodeBlock2 (y z : BitVec 3) : Instr :=
  match y.toNat with
  | 0 => pick8 z .addR8 .addInd
  | 1 => pick8 z .adcR8 .adcInd
  | 2 => pick8 z .subR8 .subInd
  | 3 => pick8 z .sbcR8 .sbcInd
  | 4 => pick8 z .andR8 .andInd
  | 5 => pick8 z .xorR8 .xorInd
  | 6 => pick8 z .orR8 .orInd
  | _ => pick8 z .cpR8 .cpInd

/-- The `CB` map (R96, R100). -/
def decodeCb (b : Byte) : Instr :=
  let y : BitVec 3 := b.extractLsb' 3 3
  let z : BitVec 3 := b.extractLsb' 0 3
  match (b.extractLsb' 6 2).toNat with
  | 0 =>
    match y.toNat with
    | 0 => pick8 z .rlcR8 .rlcInd
    | 1 => pick8 z .rrcR8 .rrcInd
    | 2 => pick8 z .rlR8 .rlInd
    | 3 => pick8 z .rrR8 .rrInd
    | 4 => pick8 z .slaR8 .slaInd
    | 5 => pick8 z .sraR8 .sraInd
    | 6 => pick8 z .swapR8 .swapInd
    | _ => pick8 z .srlR8 .srlInd
  | 1 => pick8 z (.bitR8 y ·) (.bitInd y)
  | 2 => pick8 z (.resR8 y ·) (.resInd y)
  | _ => pick8 z (.setR8 y ·) (.setInd y)

/-- Opcodes 11yyyzzz, the unassigned bytes of R101 among them; $CB reads the second byte `n` by the
`CB` map. -/
def decodeBlock3 (y z : BitVec 3) (n : Byte) (w : Word) : Instr :=
  let p : BitVec 2 := y.extractLsb' 1 2
  let cc := condOfCode (y.extractLsb' 0 2)
  match z.toNat with
  | 0 =>
    match y.toNat with
    | 4 => .ldhN8A n
    | 5 => .addSpE8 n
    | 6 => .ldhAN8 n
    | 7 => .ldHlSpE8 n
    | _ => .retCc cc
  | 1 =>
    match y.toNat with
    | 1 => .ret
    | 3 => .reti
    | 5 => .jpHl
    | 7 => .ldSpHl
    | _ => pick16 p .popR16 .popAf
  | 2 =>
    match y.toNat with
    | 4 => .ldhCA
    | 5 => .ldN16A w
    | 6 => .ldhAC
    | 7 => .ldAN16 w
    | _ => .jpCc cc w
  | 3 =>
    match y.toNat with
    | 0 => .jp w
    | 1 => decodeCb n
    | 2 => .illegalD3
    | 3 => .illegalDB
    | 4 => .illegalE3
    | 5 => .illegalEB
    | 6 => .di
    | _ => .ei
  | 4 =>
    match y.toNat with
    | 4 => .illegalE4
    | 5 => .illegalEC
    | 6 => .illegalF4
    | 7 => .illegalFC
    | _ => .callCc cc w
  | 5 =>
    match y.toNat with
    | 1 => .call w
    | 3 => .illegalDD
    | 5 => .illegalED
    | 7 => .illegalFD
    | _ => pick16 p .pushR16 .pushAf
  | 6 =>
    match y.toNat with
    | 0 => .addN8 n
    | 1 => .adcN8 n
    | 2 => .subN8 n
    | 3 => .sbcN8 n
    | 4 => .andN8 n
    | 5 => .xorN8 n
    | 6 => .orN8 n
    | _ => .cpN8 n
  | _ => .rst y

/-- The decoding procedure (R104): the instruction whose bytes are `b0`, `b1`, `b2`, as many of them
as it has. -/
def decodeBytes (b0 b1 b2 : Byte) : Instr :=
  let y : BitVec 3 := b0.extractLsb' 3 3
  let z : BitVec 3 := b0.extractLsb' 0 3
  match (b0.extractLsb' 6 2).toNat with
  | 0 => decodeBlock0 y z b1 (joinBytes b2 b1)
  | 1 => decodeBlock1 y z
  | 2 => decodeBlock2 y z
  | _ => decodeBlock3 y z b1 (joinBytes b2 b1)

/-- The length in bytes, decided by byte 0 alone (R92). -/
def instrLength (b0 : Byte) : Nat := (decodeBytes b0 0 0).size

/-- Why a byte list is no instruction: it ends inside one. Every complete byte sequence decodes
(R104). -/
inductive DecodeError where
  | truncated
deriving DecidableEq, Repr

/-- The instruction at the front of a byte list, and the bytes after it. -/
def decode : List Byte → Except DecodeError (Instr × List Byte)
  | [] => .error .truncated
  | b0 :: rest =>
    match instrLength b0, rest with
    | 1, rest => .ok (decodeBytes b0 0 0, rest)
    | 2, b1 :: rest => .ok (decodeBytes b0 b1 0, rest)
    | 3, b1 :: b2 :: rest => .ok (decodeBytes b0 b1 b2, rest)
    | _, _ => .error .truncated

/-! ## The encoder, row by row from the `encoding` column of the opcode table -/

/-- A one-field opcode: the bits above the field, the field, the bits below it. -/
def opcode3 (top : BitVec 2) (mid low : BitVec 3) : Byte := top ++ mid ++ low

/-- An opcode with a 2-bit pair code in bits 5..4. -/
def opcodePair (top p : BitVec 2) (low : BitVec 4) : Byte := top ++ p ++ low

/-- An opcode with a 2-bit condition code in bits 4..3. -/
def opcodeCond (top : BitVec 3) (cc : BitVec 2) (low : BitVec 3) : Byte := top ++ cc ++ low

/-- The bytes of an instruction, byte 0 first; an n16 is stored low byte first (R92, R97). -/
def encode : Instr → List Byte
  | .nop => [0x00]
  | .ldR16N16 p n => [opcodePair 0b00 p.code 0b0001, lo8 n, hi8 n]
  | .ldSpN16 n => [0x31, lo8 n, hi8 n]
  | .ldBcA => [0x02]
  | .ldDeA => [0x12]
  | .ldHliA => [0x22]
  | .ldHldA => [0x32]
  | .ldABc => [0x0A]
  | .ldADe => [0x1A]
  | .ldAHli => [0x2A]
  | .ldAHld => [0x3A]
  | .incR16 p => [opcodePair 0b00 p.code 0b0011]
  | .incSp => [0x33]
  | .decR16 p => [opcodePair 0b00 p.code 0b1011]
  | .decSp => [0x3B]
  | .incR8 r => [opcode3 0b00 r.code 0b100]
  | .incInd => [0x34]
  | .decR8 r => [opcode3 0b00 r.code 0b101]
  | .decInd => [0x35]
  | .ldR8N8 r n => [opcode3 0b00 r.code 0b110, n]
  | .ldIndN8 n => [0x36, n]
  | .rlca => [0x07]
  | .rrca => [0x0F]
  | .rla => [0x17]
  | .rra => [0x1F]
  | .daa => [0x27]
  | .cpl => [0x2F]
  | .scf => [0x37]
  | .ccf => [0x3F]
  | .ldN16Sp n => [0x08, lo8 n, hi8 n]
  | .stop b => [0x10, b]
  | .jr e => [0x18, e]
  | .jrCc cc e => [opcodeCond 0b001 cc.code 0b000, e]
  | .addHlR16 p => [opcodePair 0b00 p.code 0b1001]
  | .addHlSp => [0x39]
  | .ldR8R8 dst src => [opcode3 0b01 dst.code src.code]
  | .ldR8Ind r => [opcode3 0b01 r.code 0b110]
  | .ldIndR8 r => [opcode3 0b01 0b110 r.code]
  | .halt => [0x76]
  | .addR8 r => [opcode3 0b10 0b000 r.code]
  | .addInd => [0x86]
  | .addN8 n => [0xC6, n]
  | .adcR8 r => [opcode3 0b10 0b001 r.code]
  | .adcInd => [0x8E]
  | .adcN8 n => [0xCE, n]
  | .subR8 r => [opcode3 0b10 0b010 r.code]
  | .subInd => [0x96]
  | .subN8 n => [0xD6, n]
  | .sbcR8 r => [opcode3 0b10 0b011 r.code]
  | .sbcInd => [0x9E]
  | .sbcN8 n => [0xDE, n]
  | .andR8 r => [opcode3 0b10 0b100 r.code]
  | .andInd => [0xA6]
  | .andN8 n => [0xE6, n]
  | .xorR8 r => [opcode3 0b10 0b101 r.code]
  | .xorInd => [0xAE]
  | .xorN8 n => [0xEE, n]
  | .orR8 r => [opcode3 0b10 0b110 r.code]
  | .orInd => [0xB6]
  | .orN8 n => [0xF6, n]
  | .cpR8 r => [opcode3 0b10 0b111 r.code]
  | .cpInd => [0xBE]
  | .cpN8 n => [0xFE, n]
  | .retCc cc => [opcodeCond 0b110 cc.code 0b000]
  | .ret => [0xC9]
  | .reti => [0xD9]
  | .popR16 p => [opcodePair 0b11 p.code 0b0001]
  | .popAf => [0xF1]
  | .pushR16 p => [opcodePair 0b11 p.code 0b0101]
  | .pushAf => [0xF5]
  | .jpCc cc n => [opcodeCond 0b110 cc.code 0b010, lo8 n, hi8 n]
  | .jp n => [0xC3, lo8 n, hi8 n]
  | .jpHl => [0xE9]
  | .callCc cc n => [opcodeCond 0b110 cc.code 0b100, lo8 n, hi8 n]
  | .call n => [0xCD, lo8 n, hi8 n]
  | .rst t => [opcode3 0b11 t 0b111]
  | .ldhN8A n => [0xE0, n]
  | .ldhAN8 n => [0xF0, n]
  | .ldhCA => [0xE2]
  | .ldhAC => [0xF2]
  | .ldN16A n => [0xEA, lo8 n, hi8 n]
  | .ldAN16 n => [0xFA, lo8 n, hi8 n]
  | .addSpE8 e => [0xE8, e]
  | .ldHlSpE8 e => [0xF8, e]
  | .ldSpHl => [0xF9]
  | .di => [0xF3]
  | .ei => [0xFB]
  | .illegalD3 => [0xD3]
  | .illegalDB => [0xDB]
  | .illegalDD => [0xDD]
  | .illegalE3 => [0xE3]
  | .illegalE4 => [0xE4]
  | .illegalEB => [0xEB]
  | .illegalEC => [0xEC]
  | .illegalED => [0xED]
  | .illegalF4 => [0xF4]
  | .illegalFC => [0xFC]
  | .illegalFD => [0xFD]
  | .rlcR8 r => [0xCB, opcode3 0b00 0b000 r.code]
  | .rlcInd => [0xCB, 0x06]
  | .rrcR8 r => [0xCB, opcode3 0b00 0b001 r.code]
  | .rrcInd => [0xCB, 0x0E]
  | .rlR8 r => [0xCB, opcode3 0b00 0b010 r.code]
  | .rlInd => [0xCB, 0x16]
  | .rrR8 r => [0xCB, opcode3 0b00 0b011 r.code]
  | .rrInd => [0xCB, 0x1E]
  | .slaR8 r => [0xCB, opcode3 0b00 0b100 r.code]
  | .slaInd => [0xCB, 0x26]
  | .sraR8 r => [0xCB, opcode3 0b00 0b101 r.code]
  | .sraInd => [0xCB, 0x2E]
  | .swapR8 r => [0xCB, opcode3 0b00 0b110 r.code]
  | .swapInd => [0xCB, 0x36]
  | .srlR8 r => [0xCB, opcode3 0b00 0b111 r.code]
  | .srlInd => [0xCB, 0x3E]
  | .bitR8 u r => [0xCB, opcode3 0b01 u r.code]
  | .bitInd u => [0xCB, opcode3 0b01 u 0b110]
  | .resR8 u r => [0xCB, opcode3 0b10 u r.code]
  | .resInd u => [0xCB, opcode3 0b10 u 0b110]
  | .setR8 u r => [0xCB, opcode3 0b11 u r.code]
  | .setInd u => [0xCB, opcode3 0b11 u 0b110]

/-! ## The host's view of a table row -/

/-- Byte `k` of the number `w`, byte 0 the least significant. -/
def byteOfNat (w k : Nat) : Byte := BitVec.ofNat 8 (w >>> (8 * k))

/-- The instruction the decoder reads from the bytes of `w`, its first byte in bits 7..0, bits above
`nbits` taken as 0 (log 16: a row after the prefix byte has $CB as its first byte). -/
def decodeTableWord (nbits w : Nat) : Option Instr :=
  let v := w % 2 ^ nbits
  match decode [byteOfNat v 0, byteOfNat v 1, byteOfNat v 2] with
  | .ok (i, _) => some i
  | .error _ => none

end Sys2Proof
end

