-- ==== Sys2Proof/Config.lean ====
section
/-! DEFINITION. The parameters of the spec (00_scope.md R6): `MODEL`, `Bus.ram`, the environment's
moves (`IrqEnv`), and the one free value, what the environment answers to a bus read. The parameters
are plain data that State carries (log 1, 2, 6); the free value has no body (log 4). -/

namespace Sys2Proof

/-- `MODEL` (R6): the original Game Boy or the Game Boy Color. Only STOP and the existence of KEY1
depend on it (92_eei_decisions.md D1). -/
inductive Model where
  | dmg
  | cgb
deriving DecidableEq, Repr

/-- The addresses from `lo` to `hi`, both included. -/
structure AddrRange where
  lo : Addr
  hi : Addr
deriving DecidableEq, Repr

/-- What is fixed for a whole run: `MODEL` and `Bus.ram`, the set of plain-memory addresses
(20_memory.md R62), as a list of ranges. -/
structure Platform where
  model : Model
  ram : List AddrRange
deriving DecidableEq, Repr

/-- What the environment does at the start of one step (60_exceptions.md R313): the bits 4..0 of IF
it sets, and whether it signals "button press". -/
structure EnvMove where
  irq : BitVec 5
  button : Bool
deriving DecidableEq, Repr

/-- FREE VALUE (log 4). What the environment answers to its `n`-th bus read, at address `addr`
outside plain memory: any byte, not assumed repeatable (20_memory.md R62, R67). -/
opaque Config.busAnswer (n : Nat) (addr : Addr) : Byte

end Sys2Proof
end

