-- ==== Sys2Proof/Machine/State.lean ====
section
/-! DEFINITION. The machine's state (10_state.md R39), the reasons a step can stop, and reset
(70_reset_and_hazards.md R350). -/

namespace Sys2Proof.Machine

/-- Plain memory (20_memory.md R60, R62): the bytes that differ from what an unlisted address reads
as, by address, in the one canonical form `Memory.wf` names. -/
abbrev Memory := List Host.Cell

/-- The state: every piece of R39, then the parameters of R6 carried as plain data, then the model's
own counter. -/
structure State where
  /-- A, the accumulator (R20). -/
  a : Byte
  /-- F, the flags register: Z=7 N=6 H=5 C=4, bits 3..0 always 0 (R21). -/
  f : Byte
  /-- B (R20). -/
  b : Byte
  /-- C (R20). -/
  c : Byte
  /-- D (R20). -/
  d : Byte
  /-- E (R20). -/
  e : Byte
  /-- H (R20). -/
  h : Byte
  /-- L (R20). -/
  l : Byte
  /-- SP (R23). -/
  sp : Word
  /-- PC (R24). -/
  pc : Word
  /-- IME, the interrupt master enable (R30). -/
  ime : Bool
  /-- ime_pending, EI's delayed effect (R31). -/
  imePending : Bool
  /-- halted (R32). -/
  halted : Bool
  /-- halt_bug: the next fetch does not advance PC (R32, 00_scope.md R14). -/
  haltBug : Bool
  /-- stopped (R32). -/
  stopped : Bool
  /-- IE, the byte at $FFFF (R33). -/
  ie : Byte
  /-- IF, the byte at $FF0F; bits 7..5 read 1 (R33). -/
  ifReg : Byte
  /-- KEY1/SPD bit 0, the speed-switch arm bit at $FF4D on a CGB (R34). -/
  key1Arm : Bool
  /-- double_speed, also KEY1 bit 7 (R34). -/
  doubleSpeed : Bool
  /-- Plain memory (20_memory.md R62). -/
  mem : Memory
  /-- `MODEL` and `Bus.ram` (00_scope.md R6), which no step changes (log 1, 2). -/
  platform : Platform
  /-- `IrqEnv`: the environment's moves still to come, one a step; none after the last (log 6). -/
  env : List EnvMove
  /-- The model's own: how many bus reads the environment has answered (log 4). -/
  draws : Nat
deriving DecidableEq, Repr

/-- The model faults (60_exceptions.md R310): the CPU itself has no synchronous exception (R312). -/
inductive Fault where
  /-- One of the eleven unassigned bytes was fetched as byte 0 at `addr`; the state is the one before
  the step. Raised by the `ILLEGAL_xx` rows. Safe: the chip locks up and executes nothing more. -/
  | illegalOpcode (byte : Byte) (addr : Addr)
deriving DecidableEq, Repr

/-- The refusals: the closed list of 60_exceptions.md R311, and an instruction without a meaning. -/
inductive Refusal where
  /-- An instruction that has no meaning yet. Raised by no arm of this model. Safe. -/
  | notModelled (mnemonic : String)
  /-- HALT with ime_pending = 1 and an enabled request pending (49_misc.md R296). Safe. -/
  | eiHaltPending
  /-- STOP whose second byte is not $00 (49_misc.md R298). Safe. -/
  | stopOperand
  /-- STOP with MODEL = DMG (49_misc.md R298). Safe. -/
  | stopOnDmg
deriving DecidableEq, Repr

/-- What an instruction or a step answers. -/
abbrev Result := Host.Outcome State Fault Refusal

/-! ## Reset -/

/-- `RESET` (R350): the value of every register at the first step. -/
structure ResetRecord where
  a : Byte
  f : Byte
  b : Byte
  c : Byte
  d : Byte
  e : Byte
  h : Byte
  l : Byte
  sp : Word
  pc : Word
  ime : Bool
  ie : Byte
  ifReg : Byte
  key1Arm : Bool
deriving DecidableEq, Repr

/-- R350's default "after boot ROM". The IF value, $E1 as read, is the one R350 gives for both
models. -/
def ResetRecord.afterBoot : Model → ResetRecord
  | .dmg =>
    { a := 0x01, f := 0xB0, b := 0x00, c := 0x13, d := 0x00, e := 0xD8, h := 0x01, l := 0x4D,
      sp := 0xFFFE, pc := 0x0100, ime := false, ie := 0x00, ifReg := 0xE1, key1Arm := false }
  | .cgb =>
    { a := 0x11, f := 0x80, b := 0x00, c := 0x00, d := 0xFF, e := 0x56, h := 0x00, l := 0x0D,
      sp := 0xFFFE, pc := 0x0100, ime := false, ie := 0x00, ifReg := 0xE1, key1Arm := false }

/-- R350's default "power-on": PC = $0000 and IME = 0, every other register any value (taken from
`r`). -/
def ResetRecord.powerOn (r : ResetRecord) : ResetRecord :=
  { r with pc := 0x0000, ime := false }

/-- `Bus.ram` at reset: every address but IE, IF and KEY1 (the convention of 95_test_vectors.md;
DESIGN CHOICE, log 2). -/
def resetRam : List AddrRange :=
  [⟨0x0000, 0xFF0E⟩, ⟨0xFF10, 0xFF4C⟩, ⟨0xFF4E, 0xFFFE⟩]

/-- The state at the first step of a run (R350): the registers from the record (F bits 3..0 are 0 and
IF bits 7..5 are 1, R21, R33), the hidden bits 0, nothing listed in memory (log 3), no move of the
environment to come (log 6). -/
def State.ofReset (p : Platform) (r : ResetRecord) : State :=
  { a := r.a, f := r.f &&& 0xF0, b := r.b, c := r.c, d := r.d, e := r.e, h := r.h, l := r.l,
    sp := r.sp, pc := r.pc, ime := r.ime, imePending := false, halted := false, haltBug := false,
    stopped := false, ie := r.ie, ifReg := r.ifReg ||| 0xE0, key1Arm := r.key1Arm,
    doubleSpeed := false, mem := [], platform := p, env := [], draws := 0 }

/-- The machine right after reset: a CGB after its boot ROM (DESIGN CHOICE among the values R350
offers, log 1, 2, 8). -/
def State.reset : State :=
  State.ofReset ⟨.cgb, resetRam⟩ (ResetRecord.afterBoot .cgb)

end Sys2Proof.Machine
end

