-- ==== Sys2Proof/Machine/Memory.lean ====
section
/-! DEFINITION. Plain memory as a canonical list of cells: reading and writing one byte, and the
canonical form (20_memory.md R60, R62). -/

namespace Sys2Proof.Machine

/-- What an unlisted byte of plain memory reads as: $00 (DESIGN CHOICE, log 3; R350 assigns no value
to any memory location). -/
def Memory.unlisted : Byte := 0

/-- The byte at an address. -/
def Memory.read : Memory → Nat → Byte
  | [], _ => Memory.unlisted
  | (k, v) :: rest, a => if k = a then v else Memory.read rest a

/-- Memory without the cells of an address. -/
def Memory.erase : Memory → Nat → Memory
  | [], _ => []
  | (k, u) :: rest, a => if k = a then Memory.erase rest a else (k, u) :: Memory.erase rest a

/-- Put a cell before the first one of a higher address. -/
def Memory.insert : Memory → Nat → Byte → Memory
  | [], a, v => [(a, v)]
  | (k, u) :: rest, a, v =>
    if a < k then (a, v) :: (k, u) :: rest else (k, u) :: Memory.insert rest a v

/-- Store one byte, keeping the canonical form: a byte equal to what an unlisted address reads as is
not listed. -/
def Memory.write (m : Memory) (a : Nat) (v : Byte) : Memory :=
  if v = Memory.unlisted then m.erase a else (m.erase a).insert a v

/-- The canonical form: addresses strictly rising, below 65536, no cell equal to what an unlisted
address reads as. -/
abbrev Memory.wf (m : Memory) : Prop :=
  m.Pairwise (fun x y => x.1 < y.1) ∧ ∀ x ∈ m, x.1 < 65536 ∧ x.2 ≠ Memory.unlisted

end Sys2Proof.Machine
end

