-- ==== Sys2Proof/Machine/Ops.lean ====
section
/-! DEFINITION. The named operations over registers, the bus, the stack and the interrupt machinery
(00_scope.md R13 to R15). -/

namespace Sys2Proof.Machine

/-! ## Registers (10_state.md R20 to R24) -/

/-- `x[i]` read, for an r8 (R13). -/
def State.reg8 (s : State) : Reg8 → Byte
  | .a => s.a
  | .b => s.b
  | .c => s.c
  | .d => s.d
  | .e => s.e
  | .h => s.h
  | .l => s.l

/-- `x[i] <- v` (R13). -/
def State.setReg8 (s : State) (r : Reg8) (v : Byte) : State :=
  match r with
  | .a => { s with a := v }
  | .b => { s with b := v }
  | .c => { s with c := v }
  | .d => { s with d := v }
  | .e => { s with e := v }
  | .h => { s with h := v }
  | .l => { s with l := v }

/-- BC = `{B, C}` (R22). -/
def State.bc (s : State) : Word := joinBytes s.b s.c

/-- DE = `{D, E}` (R22). -/
def State.de (s : State) : Word := joinBytes s.d s.e

/-- HL = `{H, L}` (R22). -/
def State.hl (s : State) : Word := joinBytes s.h s.l

/-- `rp[p]` read (R13). -/
def State.reg16 (s : State) : Reg16 → Word
  | .bc => s.bc
  | .de => s.de
  | .hl => s.hl

/-- `rp[p] <- w`: both halves are written (R22). -/
def State.setReg16 (s : State) (p : Reg16) (w : Word) : State :=
  match p with
  | .bc => { s with b := hi8 w, c := lo8 w }
  | .de => { s with d := hi8 w, e := lo8 w }
  | .hl => { s with h := hi8 w, l := lo8 w }

/-- `SP <- w` (R23). -/
def State.setSp (s : State) (w : Word) : State := { s with sp := w }

/-- `PC <- w` (R24, 00_scope.md R15). -/
def State.setPc (s : State) (w : Word) : State := { s with pc := w }

/-- F read: bits 3..0 always read 0 (R21). -/
def State.flagsReg (s : State) : Byte := s.f &&& 0xF0

/-- F written whole: bits 3..0 ignore writes (R21). -/
def State.setFlagsReg (s : State) (v : Byte) : State := { s with f := v &&& 0xF0 }

/-- AF = `{A, F}` (R22). -/
def State.af (s : State) : Word := joinBytes s.a s.flagsReg

/-- `AF <- w` (R22, 42_stack.md R185). -/
def State.setAf (s : State) (w : Word) : State :=
  ({ s with a := hi8 w }).setFlagsReg (lo8 w)

/-! ## The bus (20_memory.md R62, R64, R67) -/

/-- IE's address (R33). -/
def ieAddr : Addr := 0xFFFF

/-- IF's address (R33). -/
def ifAddr : Addr := 0xFF0F

/-- KEY1/SPD's address (R34). -/
def key1Addr : Addr := 0xFF4D

/-- IF as read: bits 7..5 read 1 (R33). -/
def State.readIf (s : State) : Byte := s.ifReg ||| 0xE0

/-- `IF <- v`: bits 7..5 ignore writes (R33). -/
def State.writeIf (s : State) (v : Byte) : State := { s with ifReg := v ||| 0xE0 }

/-- KEY1 as read: bit 0 the arm bit, bit 7 double_speed, the others 1; on a DMG the register does not
exist and $FF is read (R34; log 10). -/
def State.readKey1 (s : State) : Byte :=
  match s.platform.model with
  | .cgb => BitVec.ofBool s.doubleSpeed ++ (0b111111 : BitVec 6) ++ BitVec.ofBool s.key1Arm
  | .dmg => 0xFF

/-- `KEY1 <- v`: on a CGB bit 0 arms the speed switch (R34, R67); on a DMG there is no register and the
write is ignored (log 10). -/
def State.writeKey1 (s : State) (v : Byte) : State :=
  match s.platform.model with
  | .cgb => { s with key1Arm := v.getLsbD 0 }
  | .dmg => s

/-- The address is one of the CPU's own registers, which take precedence over `Bus.ram` (R62,
60_exceptions.md R324; log 11). -/
def isCpuRegister (a : Addr) : Bool := a == ieAddr || a == ifAddr || a == key1Addr

/-- The address is in `Bus.ram` (R62). -/
def State.inRam (s : State) (a : Addr) : Bool :=
  s.platform.ram.any fun r => r.lo ≤ a && a ≤ r.hi

/-- The address is plain memory: in `Bus.ram` and no register of the CPU's. -/
def State.isPlain (s : State) (a : Addr) : Bool := !isCpuRegister a && s.inRam a

/-- The byte a read of `a` returns where the rules fix it: a register of the CPU's or plain memory;
`none` where the environment answers (R62). -/
def State.peek (s : State) (a : Addr) : Option Byte :=
  if a = ieAddr then some s.ie
  else if a = ifAddr then some s.readIf
  else if a = key1Addr then some s.readKey1
  else if s.inRam a then some (s.mem.read a.toNat)
  else none

/-- `MemRead(a, 1)`, its value: where the environment answers, its next answer (R62; log 4). -/
def State.readByte (s : State) (a : Addr) : Byte :=
  (s.peek a).getD (Config.busAnswer s.draws a)

/-- `MemRead(a, 1)`, its effect: none, but that an answer of the environment is used up (R67). -/
def State.afterRead (s : State) (a : Addr) : State :=
  match s.peek a with
  | some _ => s
  | none => { s with draws := s.draws + 1 }

/-- `MemWrite(a, 1, v)`: a register of the CPU's is written, plain memory keeps the byte, any other
write goes to the environment (R62, R67; log 5). -/
def State.writeByte (s : State) (a : Addr) (v : Byte) : State :=
  if a = ieAddr then { s with ie := v }
  else if a = ifAddr then s.writeIf v
  else if a = key1Addr then s.writeKey1 v
  else if s.inRam a then { s with mem := s.mem.write a.toNat v }
  else s

/-- `MemRead(a, 2)`, its value: the low byte at `a`, then the high byte at `a + 1` mod 65536 (R64). -/
def State.readWord (s : State) (a : Addr) : Word :=
  joinBytes ((s.afterRead a).readByte (a + 1)) (s.readByte a)

/-- `MemRead(a, 2)`, its effect. -/
def State.afterReadWord (s : State) (a : Addr) : State := (s.afterRead a).afterRead (a + 1)

/-- `MemWrite(a, 2, w)`: the low byte at `a` first, then the high byte at `a + 1` mod 65536 (R64). -/
def State.writeWord (s : State) (a : Addr) (w : Word) : State :=
  (s.writeByte a (lo8 w)).writeByte (a + 1) (hi8 w)

/-! ## Fetching (00_scope.md R14) -/

/-- The address of byte `k` of the instruction at PC. After a HALT that did not wait, the opcode byte
is read without advancing PC and is read again as the next byte (R14, 49_misc.md R296). -/
def State.codeAddr (s : State) (k : Nat) : Addr :=
  if s.haltBug then s.pc + BitVec.ofNat 16 (k - 1) else s.pc + BitVec.ofNat 16 k

/-- What `n` calls of `Fetch8()`, `n` at least 1, do to PC and halt_bug (R14). -/
def State.advance (s : State) (n : Nat) : State :=
  { s with pc := s.codeAddr n, haltBug := false }

/-- `Fetch8()` as R14 words it: the byte at PC and the state after. -/
def State.fetch8 (s : State) : Byte × State :=
  let t := s.afterRead s.pc
  (s.readByte s.pc, if s.haltBug then { t with haltBug := false } else { t with pc := t.pc + 1 })

/-! ## The stack (42_stack.md R180, R181) -/

/-- `Push16(w)`: SP down by one, the high byte, SP down by one, the low byte (R180). -/
def State.push16 (s : State) (w : Word) : State :=
  let s := s.setSp (s.sp - 1)
  let s := s.writeByte s.sp (hi8 w)
  let s := s.setSp (s.sp - 1)
  s.writeByte s.sp (lo8 w)

/-- `Pop16()`, the word it returns (R181). -/
def State.popWord (s : State) : Word := s.readWord s.sp

/-- `Pop16()`, the state after it (R181). -/
def State.afterPop (s : State) : State := (s.afterReadWord s.sp).setSp (s.sp + 2)

/-! ## Interrupts (60_exceptions.md R313 to R318) -/

/-- The five sources (R314), in the order of their priority (R317). -/
inductive IrqSource where
  | vblank | lcd | timer | serial | joypad
deriving DecidableEq, Repr

/-- A source's bit in IE and IF (R314). -/
def IrqSource.bit : IrqSource → Nat
  | .vblank => 0
  | .lcd => 1
  | .timer => 2
  | .serial => 3
  | .joypad => 4

/-- A source's handler address, `$0040 + 8 * i` (R314). -/
def IrqSource.vector (i : IrqSource) : Addr := 0x0040 + 8 * BitVec.ofNat 16 i.bit

/-- `IE AND IF AND $1F` (R315). -/
def State.pending (s : State) : BitVec 5 := (s.ie &&& s.ifReg).extractLsb' 0 5

/-- The lowest-numbered source among the bits of `p` (R317). -/
def lowestPending (p : BitVec 5) : Option IrqSource :=
  if p.getLsbD 0 then some .vblank
  else if p.getLsbD 1 then some .lcd
  else if p.getLsbD 2 then some .timer
  else if p.getLsbD 3 then some .serial
  else if p.getLsbD 4 then some .joypad
  else none

/-- `IF[i] <- 0` (R318). -/
def State.clearRequest (s : State) (i : IrqSource) : State :=
  { s with ifReg := s.ifReg &&& ~~~((1 : Byte) <<< i.bit) }

/-- Interrupt entry (R318): `IME <- 0; ime_pending <- 0; IF[i] <- 0; Push16(PC); PC <- vector`. -/
def State.enterInterrupt (s : State) (i : IrqSource) : State :=
  let s := ({ s with ime := false, imePending := false }).clearRequest i
  (s.push16 s.pc).setPc i.vector

/-- Return with interrupts enabled (48_control.md R276): `PC <- Pop16(); IME <- 1; ime_pending <- 0`. -/
def State.returnFromInterrupt (s : State) : State :=
  { s.afterPop.setPc s.popWord with ime := true, imePending := false }

end Sys2Proof.Machine
end

