-- ==== Sys2Proof/Machine/Cycle.lean ====
section
/-! DEFINITION. The parts of one step (60_exceptions.md R316) around the instruction: the environment's
move, the waits, the interrupt check, the fetch, and the delayed effect of EI. -/

namespace Sys2Proof.Machine

/-- The environment's move of this step (R313); none when the schedule is used up. -/
def State.envMove (s : State) : EnvMove := s.env.headD ⟨0, false⟩

/-- R316 (0): the environment sets bits of IF, and its move is used up (R313). -/
def State.afterEnv (s : State) : State :=
  { s with ifReg := s.ifReg ||| s.envMove.irq.zeroExtend 8, env := s.env.tail }

/-- What a step comes to before its fetch. -/
inductive Phase where
  /-- The CPU is stopped or halted and nothing ends the wait: the step ends in this state. -/
  | idle (s : State)
  /-- The interrupt of this source is taken from this state. -/
  | interrupt (i : IrqSource) (s : State)
  /-- One instruction is fetched and executed from this state. -/
  | execute (s : State)
deriving DecidableEq, Repr

/-- R316 (1) to (3), from a state that is not stopped: the halted wait ends when a request is pending
whatever IME is; an interrupt is taken when IME = 1 and a request is pending. -/
def State.checkInterrupt (s : State) : Phase :=
  if s.halted && s.pending == 0 then .idle s
  else
    let s := { s with halted := false }
    match lowestPending s.pending with
    | some i => if s.ime then .interrupt i s else .execute s
    | none => .execute s

/-- R316 (0) to (3): a stopped CPU goes on only at the event "button press". -/
def State.prepare (s : State) : Phase :=
  let t := s.afterEnv
  if s.stopped && !s.envMove.button then .idle t
  else ({ t with stopped := false }).checkInterrupt

/-- The instruction at PC and the state after its bytes are read, in ascending order, each through the
bus (R316 (4), 20_memory.md R68, R73); PC moves when the instruction runs (log 12). -/
def State.fetch (s : State) : Instr × State :=
  let b0 := s.readByte (s.codeAddr 0)
  let s1 := s.afterRead (s.codeAddr 0)
  let b1 := s1.readByte (s.codeAddr 1)
  let s2 := s1.afterRead (s.codeAddr 1)
  let b2 := s2.readByte (s.codeAddr 2)
  let s3 := s2.afterRead (s.codeAddr 2)
  match instrLength b0 with
  | 1 => (decodeBytes b0 0 0, s1)
  | 2 => (decodeBytes b0 b1 0, s2)
  | _ => (decodeBytes b0 b1 b2, s3)

/-- R316 (5): when EI ran in the step before (`arm`) and is still pending, IME becomes 1. -/
def State.armIme (arm : Bool) (s : State) : State :=
  if arm && s.imePending then { s with ime := true, imePending := false } else s

/-- R316 (5) on what the instruction answers. -/
def completeStep (arm : Bool) : Result → Result
  | .next s => .next (s.armIme arm)
  | .fault r => .fault r
  | .refused r => .refused r

/-! ## Placing an instruction for the next step to run (the host's `withFetchWord`) -/

/-- Put a byte where a fetch at `a` reads it: in plain memory, which `Bus.ram` is extended to hold it
where it must be (log 21). A register of the CPU's is written as a store writes it. -/
def State.plantByte (s : State) (a : Addr) (v : Byte) : State :=
  if isCpuRegister a || s.inRam a then s.writeByte a v
  else
    ({ s with platform := { s.platform with ram := ⟨a, a⟩ :: s.platform.ram } }).writeByte a v

/-- The state with nothing that keeps the next step from fetching: no wait, no double read, no move of
the environment that raises a request, no interrupt to take (log 21). -/
def State.readyToFetch (s : State) : State :=
  { s with
    halted := false, stopped := false, haltBug := false
    ime := s.ime && s.afterEnv.pending == 0 }

/-- The instruction whose bytes are those of `w` (bits above `nbits` 0), stored at PC. -/
def State.plantWord (s : State) (nbits w : Nat) : State :=
  let v := w % 2 ^ nbits
  let s := s.readyToFetch
  let s := s.plantByte s.pc (byteOfNat v 0)
  let s := s.plantByte (s.pc + 1) (byteOfNat v 1)
  s.plantByte (s.pc + 2) (byteOfNat v 2)

end Sys2Proof.Machine
end

