-- ==== Sys2Proof/Machine/Flags.lean ====
section
/-! DEFINITION. The flags of F (10_state.md R21, R25 to R29) and the functions that compute results and
flags: `add8`, `sub8` (44_alu8.md R215), `sh` (41_shifts8.md R170), `addsp` (47_loads16_arith16.md
R254), the 16-bit addition (R258) and the decimal adjustment (49_misc.md R290). -/

namespace Sys2Proof.Machine

/-! ## The flags of F -/

/-- Flag Z, `F[7]` (R25). -/
def State.flagZ (s : State) : Bool := s.f.getLsbD 7

/-- Flag N, `F[6]` (R26). -/
def State.flagN (s : State) : Bool := s.f.getLsbD 6

/-- Flag H, `F[5]` (R27). -/
def State.flagH (s : State) : Bool := s.f.getLsbD 5

/-- Flag C, `F[4]` (R28). -/
def State.flagC (s : State) : Bool := s.f.getLsbD 4

/-- F with the four flags given and bits 3..0 zero (R21). -/
def packFlags (z n h c : Bool) : Byte :=
  BitVec.ofBool z ++ BitVec.ofBool n ++ BitVec.ofBool h ++ BitVec.ofBool c ++ (0 : BitVec 4)

/-- Write all four flags; a flag an instruction does not write is passed on as it stands. -/
def State.setFlags (s : State) (z n h c : Bool) : State := { s with f := packFlags z n h c }

/-- The truth of a condition code (48_control.md R265). -/
def State.cond (s : State) : Cond → Bool
  | .nz => !s.flagZ
  | .z => s.flagZ
  | .nc => !s.flagC
  | .c => s.flagC

/-! ## 8-bit addition and subtraction (R215) -/

/-- A result byte with its half carry and carry (or borrows). -/
structure Result8 where
  v : Byte
  h : Bool
  c : Bool
deriving DecidableEq, Repr

/-- `add8(a, b, cin)` (R215): the sum mod 256, the carry out of bit 3, the carry out of bit 7. -/
def add8 (a b : Byte) (cin : Bool) : Result8 :=
  let sum := a.toNat + b.toNat + cin.toNat
  { v := BitVec.ofNat 8 sum
    h := 15 < a.toNat % 16 + b.toNat % 16 + cin.toNat
    c := 255 < sum }

/-- `sub8(a, b, cin)` (R215): the difference mod 256, the borrow into bit 3, the borrow of the byte. -/
def sub8 (a b : Byte) (cin : Bool) : Result8 :=
  { v := BitVec.ofInt 8 ((a.toNat : Int) - b.toNat - cin.toNat)
    h := a.toNat % 16 < b.toNat % 16 + cin.toNat
    c := a.toNat < b.toNat + cin.toNat }

/-! ## Shifts and rotates (R170) -/

/-- The operations of the shift table. -/
inductive ShiftOp where
  | rlc | rrc | rl | rr | sla | sra | swap | srl
deriving DecidableEq, Repr

/-- `sh(op, b, cin)` (R170): the new byte and the new carry, bit by bit as the table's last column
gives them. -/
def sh (op : ShiftOp) (b : Byte) (cin : Bool) : Byte × Bool :=
  match op with
  | .rl => (b.extractLsb' 0 7 ++ BitVec.ofBool cin, b.getLsbD 7)
  | .rlc => (b.extractLsb' 0 7 ++ b.extractLsb' 7 1, b.getLsbD 7)
  | .rr => (BitVec.ofBool cin ++ b.extractLsb' 1 7, b.getLsbD 0)
  | .rrc => (b.extractLsb' 0 1 ++ b.extractLsb' 1 7, b.getLsbD 0)
  | .swap => (b.extractLsb' 0 4 ++ b.extractLsb' 4 4, false)
  | .sla => (b.extractLsb' 0 7 ++ (0 : BitVec 1), b.getLsbD 7)
  | .sra => (b.extractLsb' 7 1 ++ b.extractLsb' 1 7, b.getLsbD 0)
  | .srl => ((0 : BitVec 1) ++ b.extractLsb' 1 7, b.getLsbD 0)

/-! ## 16-bit additions (R254, R258) -/

/-- A result word with its half carry and carry. -/
structure Result16 where
  w : Word
  h : Bool
  c : Bool
deriving DecidableEq, Repr

/-- `addsp(e)` (R254): SP plus the sign-extended byte; H and C from the unsigned addition of the low
bytes. -/
def addSp (sp : Word) (e : Byte) : Result16 :=
  { w := sp + sext16 e
    h := 15 < sp.toNat % 16 + e.toNat % 16
    c := 255 < sp.toNat % 256 + e.toNat }

/-- The addition of ADD HL (R258): carries out of bit 11 and of bit 15. -/
def add16 (a b : Word) : Result16 :=
  let sum := a.toNat + b.toNat
  { w := BitVec.ofNat 16 sum
    h := 4095 < a.toNat % 4096 + b.toNat % 4096
    c := 65535 < sum }

/-! ## Decimal adjustment (R290) -/

/-- DAA's new A and new C from A, N, H and C (R290); both tests look at A before any adjustment. -/
def daaAdjust (a : Byte) (n h c : Bool) : Byte × Bool :=
  if n then
    let adj : Byte := (if h then 0x06 else 0) + (if c then 0x60 else 0)
    (a - adj, c)
  else
    let low := h || 9 < a.toNat % 16
    let high := c || 0x99 < a.toNat
    let adj : Byte := (if low then 0x06 else 0) + (if high then 0x60 else 0)
    (a + adj, high)

end Sys2Proof.Machine
end

