-- ==== Sys2Proof/Machine/Operands.lean ====
section
/-! DEFINITION. The operand forms (00_scope.md R9, R13; 20_memory.md R61): sources of the 8-bit
instructions, places that are read and rewritten, and the addresses the loads name. -/

namespace Sys2Proof.Machine

/-- Where an 8-bit instruction on A takes its argument: r8, n8 or `[HL]`. -/
inductive Src8 where
  | reg (r : Reg8)
  | imm (n : Byte)
  | ind
deriving DecidableEq, Repr

/-- The argument's value. -/
def State.src8 (s : State) : Src8 → Byte
  | .reg r => s.reg8 r
  | .imm n => n
  | .ind => s.readByte s.hl

/-- The state after the argument is read. -/
def State.afterSrc8 (s : State) : Src8 → State
  | .reg _ => s
  | .imm _ => s
  | .ind => s.afterRead s.hl

/-- A subject an instruction reads and may rewrite: an r8 or the byte at HL (`Op8Read`, `Op8Write`
of R13). -/
inductive Place8 where
  | reg (r : Reg8)
  | ind
deriving DecidableEq, Repr

/-- `Op8Read` (R13), its value. -/
def State.readPlace (s : State) : Place8 → Byte
  | .reg r => s.reg8 r
  | .ind => s.readByte s.hl

/-- `Op8Read` (R13), the state after it. -/
def State.afterReadPlace (s : State) : Place8 → State
  | .reg _ => s
  | .ind => s.afterRead s.hl

/-- `Op8Write` (R13). -/
def State.writePlace (s : State) (p : Place8) (v : Byte) : State :=
  match p with
  | .reg r => s.setReg8 r v
  | .ind => s.writeByte s.hl v

/-- The high page's address for an offset: `$FF00 + n` (40_loads8.md R130 to R133). -/
def highPage (n : Byte) : Addr := 0xFF00 + zext16 n

/-! ## Instruction bodies shared by several forms

`n` is the instruction's size: each body begins where its bytes have been fetched (R15). -/

/-- A load of A from memory: `A <- MemRead(addr, 1)`. -/
def loadA (n : Nat) (addr : Addr) (s : State) : Result :=
  let s := s.advance n
  .next ((s.afterRead addr).setReg8 .a (s.readByte addr))

/-- A store of A: `MemWrite(addr, 1, A)`. -/
def storeA (n : Nat) (addr : Addr) (s : State) : Result :=
  let s := s.advance n
  .next (s.writeByte addr s.a)

/-- An 8-bit operation that writes A and the four flags: `f` gives the result from A, the argument
and flag C (44_alu8.md). -/
def aluA (n : Nat) (src : Src8) (subtract : Bool) (f : Byte → Byte → Bool → Result8) (s : State) :
    Result :=
  let s := s.advance n
  let r := f s.a (s.src8 src) s.flagC
  .next (((s.afterSrc8 src).setReg8 .a r.v).setFlags (r.v == 0) subtract r.h r.c)

/-- The comparison: the flags of SUB, A not written (44_alu8.md R212 to R214). -/
def compareA (n : Nat) (src : Src8) (s : State) : Result :=
  let s := s.advance n
  let r := sub8 s.a (s.src8 src) false
  .next ((s.afterSrc8 src).setFlags (r.v == 0) true r.h r.c)

/-- A bitwise operation on A: N = 0, H as given, C = 0 (45_logic8.md R220 to R228). -/
def logicA (n : Nat) (src : Src8) (half : Bool) (f : Byte → Byte → Byte) (s : State) : Result :=
  let s := s.advance n
  let v := f s.a (s.src8 src)
  .next (((s.afterSrc8 src).setReg8 .a v).setFlags (v == 0) false half false)

/-- A shift or rotate of r8 or `[HL]`: Z per result, N = 0, H = 0, C from the shift (41_shifts8.md
R154 to R169). -/
def shiftPlace (op : ShiftOp) (p : Place8) (s : State) : Result :=
  let s := s.advance 2
  let r := sh op (s.readPlace p) s.flagC
  .next (((s.afterReadPlace p).writePlace p r.1).setFlags (r.1 == 0) false false r.2)

/-- A one-byte rotate of A: Z = 0, N = 0, H = 0 (41_shifts8.md R150 to R153). -/
def rotateA (op : ShiftOp) (s : State) : Result :=
  let s := s.advance 1
  let r := sh op s.a s.flagC
  .next ((s.setReg8 .a r.1).setFlags false false false r.2)

/-- Increment of r8 or `[HL]`; C not written (43_incdec.md R190, R191). -/
def incPlace (p : Place8) (s : State) : Result :=
  let s := s.advance 1
  let o := s.readPlace p
  let v := o + 1
  .next (((s.afterReadPlace p).writePlace p v).setFlags (v == 0) false (o.toNat % 16 == 15) s.flagC)

/-- Decrement of r8 or `[HL]`; C not written (43_incdec.md R192, R193). -/
def decPlace (p : Place8) (s : State) : Result :=
  let s := s.advance 1
  let o := s.readPlace p
  let v := o - 1
  .next (((s.afterReadPlace p).writePlace p v).setFlags (v == 0) true (o.toNat % 16 == 0) s.flagC)

/-- BIT: Z is the complement of the bit, N = 0, H = 1, C not written (46_bitops.md R235, R236). -/
def testBit (u : BitVec 3) (p : Place8) (s : State) : Result :=
  let s := s.advance 2
  let m := s.readPlace p
  .next ((s.afterReadPlace p).setFlags (!m.getLsbD u.toNat) false true s.flagC)

/-- RES: the bit set to 0, no flag written (46_bitops.md R237, R238). -/
def clearBit (u : BitVec 3) (p : Place8) (s : State) : Result :=
  let s := s.advance 2
  .next ((s.afterReadPlace p).writePlace p (s.readPlace p &&& ~~~((1 : Byte) <<< u.toNat)))

/-- SET: the bit set to 1, no flag written (46_bitops.md R239, R240). -/
def setBit (u : BitVec 3) (p : Place8) (s : State) : Result :=
  let s := s.advance 2
  .next ((s.afterReadPlace p).writePlace p (s.readPlace p ||| ((1 : Byte) <<< u.toNat)))

/-- ADD HL: Z not written, N = 0, H and C of the high byte (47_loads16_arith16.md R258, R259). -/
def addHl (w : State → Word) (s : State) : Result :=
  let s := s.advance 1
  let r := add16 s.hl (w s)
  .next ((s.setReg16 .hl r.w).setFlags s.flagZ false r.h r.c)

/-- A jump to an absolute address, under a condition (48_control.md R266, R267). -/
def jumpTo (n : Nat) (taken : State → Bool) (target : State → Word) (s : State) : Result :=
  let s := s.advance n
  .next (if taken s then s.setPc (target s) else s)

/-- A jump relative to the next instruction's address, under a condition (48_control.md R268, R269). -/
def jumpRelative (taken : State → Bool) (e : Byte) (s : State) : Result :=
  jumpTo 2 taken (fun s => s.pc + sext16 e) s

/-- A call, under a condition: `Push16(PC); PC <- target` (48_control.md R271 to R273). -/
def callTo (n : Nat) (taken : State → Bool) (target : Word) (s : State) : Result :=
  let s := s.advance n
  .next (if taken s then (s.push16 s.pc).setPc target else s)

/-- A return, under a condition: `PC <- Pop16()` (48_control.md R274, R275). -/
def returnIf (taken : State → Bool) (s : State) : Result :=
  let s := s.advance 1
  .next (if taken s then s.afterPop.setPc s.popWord else s)

end Sys2Proof.Machine
end

