-- ==== Sys2Proof/Machine/Alu8.lean ====
section
/-! DEFINITION. 8-bit arithmetic on A (44_alu8.md R200 to R214). -/

namespace Sys2Proof.Machine

/-- ADD n8 (R200). -/
def execAddN8 (n : Byte) (s : State) : Result :=
  aluA 2 (.imm n) false (fun a b _ => add8 a b false) s

/-- ADD r8 (R201). -/
def execAddR8 (r : Reg8) (s : State) : Result :=
  aluA 1 (.reg r) false (fun a b _ => add8 a b false) s

/-- ADD [HL] (R202). -/
def execAddInd (s : State) : Result :=
  aluA 1 .ind false (fun a b _ => add8 a b false) s

/-- ADC n8 (R203). -/
def execAdcN8 (n : Byte) (s : State) : Result :=
  aluA 2 (.imm n) false add8 s

/-- ADC r8 (R204). -/
def execAdcR8 (r : Reg8) (s : State) : Result :=
  aluA 1 (.reg r) false add8 s

/-- ADC [HL] (R205). -/
def execAdcInd (s : State) : Result :=
  aluA 1 .ind false add8 s

/-- SUB n8 (R206). -/
def execSubN8 (n : Byte) (s : State) : Result :=
  aluA 2 (.imm n) true (fun a b _ => sub8 a b false) s

/-- SUB r8 (R207). -/
def execSubR8 (r : Reg8) (s : State) : Result :=
  aluA 1 (.reg r) true (fun a b _ => sub8 a b false) s

/-- SUB [HL] (R208). -/
def execSubInd (s : State) : Result :=
  aluA 1 .ind true (fun a b _ => sub8 a b false) s

/-- SBC n8 (R209). -/
def execSbcN8 (n : Byte) (s : State) : Result :=
  aluA 2 (.imm n) true sub8 s

/-- SBC r8 (R210). -/
def execSbcR8 (r : Reg8) (s : State) : Result :=
  aluA 1 (.reg r) true sub8 s

/-- SBC [HL] (R211). -/
def execSbcInd (s : State) : Result :=
  aluA 1 .ind true sub8 s

/-- CP n8 (R212). -/
def execCpN8 (n : Byte) (s : State) : Result :=
  compareA 2 (.imm n) s

/-- CP r8 (R213). -/
def execCpR8 (r : Reg8) (s : State) : Result :=
  compareA 1 (.reg r) s

/-- CP [HL] (R214). -/
def execCpInd (s : State) : Result :=
  compareA 1 .ind s

end Sys2Proof.Machine
end

