-- ==== Sys2Proof/Machine/Arith16.lean ====
section
/-! DEFINITION. 16-bit loads, SP arithmetic and 16-bit arithmetic (47_loads16_arith16.md R250 to R260). -/

namespace Sys2Proof.Machine

/-- LD r16,n16 (R250). -/
def execLdR16N16 (p : Reg16) (n : Word) (s : State) : Result :=
  .next ((s.advance 3).setReg16 p n)

/-- LD SP,n16 (R251). -/
def execLdSpN16 (n : Word) (s : State) : Result :=
  .next ((s.advance 3).setSp n)

/-- LD [n16],SP (R252). -/
def execLdN16Sp (n : Word) (s : State) : Result :=
  let s := s.advance 3
  .next (s.writeWord n s.sp)

/-- LD SP,HL (R253). -/
def execLdSpHl (s : State) : Result :=
  let s := s.advance 1
  .next (s.setSp s.hl)

/-- LD HL,SP+e8 (R256). -/
def execLdHlSpE8 (e : Byte) (s : State) : Result :=
  let s := s.advance 2
  let r := addSp s.sp e
  .next ((s.setReg16 .hl r.w).setFlags false false r.h r.c)

/-- ADD HL,r16 (R258). -/
def execAddHlR16 (p : Reg16) (s : State) : Result :=
  addHl (fun s => s.reg16 p) s

/-- ADD HL,SP (R259). -/
def execAddHlSp (s : State) : Result :=
  addHl (fun s => s.sp) s

/-- ADD SP,e8 (R260). -/
def execAddSpE8 (e : Byte) (s : State) : Result :=
  let s := s.advance 2
  let r := addSp s.sp e
  .next ((s.setSp r.w).setFlags false false r.h r.c)

end Sys2Proof.Machine
end

