-- ==== Sys2Proof/Machine/BitOps.lean ====
section
/-! DEFINITION. Bit operations (46_bitops.md R235 to R242). -/

namespace Sys2Proof.Machine

/-- BIT u3,r8 (R235). -/
def execBitR8 (u : BitVec 3) (r : Reg8) (s : State) : Result :=
  testBit u (.reg r) s

/-- BIT u3,[HL] (R236). -/
def execBitInd (u : BitVec 3) (s : State) : Result :=
  testBit u .ind s

/-- RES u3,r8 (R237). -/
def execResR8 (u : BitVec 3) (r : Reg8) (s : State) : Result :=
  clearBit u (.reg r) s

/-- RES u3,[HL] (R238). -/
def execResInd (u : BitVec 3) (s : State) : Result :=
  clearBit u .ind s

/-- SET u3,r8 (R239). -/
def execSetR8 (u : BitVec 3) (r : Reg8) (s : State) : Result :=
  setBit u (.reg r) s

/-- SET u3,[HL] (R240). -/
def execSetInd (u : BitVec 3) (s : State) : Result :=
  setBit u .ind s

/-- SCF (R241). -/
def execScf (s : State) : Result :=
  let s := s.advance 1
  .next (s.setFlags s.flagZ false false true)

/-- CCF (R242). -/
def execCcf (s : State) : Result :=
  let s := s.advance 1
  .next (s.setFlags s.flagZ false false (!s.flagC))

end Sys2Proof.Machine
end

