-- ==== Sys2Proof/Machine/Control.lean ====
section
/-! DEFINITION. Jumps, calls and returns (48_control.md R266 to R276). No flag is written. -/

namespace Sys2Proof.Machine

/-- JP n16 (R266). -/
def execJp (n : Word) (s : State) : Result :=
  jumpTo 3 (fun _ => true) (fun _ => n) s

/-- JP cc,n16 (R267). -/
def execJpCc (cc : Cond) (n : Word) (s : State) : Result :=
  jumpTo 3 (fun s => s.cond cc) (fun _ => n) s

/-- JR n16, as stored: an e8 (R268). -/
def execJr (e : Byte) (s : State) : Result :=
  jumpRelative (fun _ => true) e s

/-- JR cc,n16, as stored: an e8 (R269). -/
def execJrCc (cc : Cond) (e : Byte) (s : State) : Result :=
  jumpRelative (fun s => s.cond cc) e s

/-- JP HL (R270). -/
def execJpHl (s : State) : Result :=
  jumpTo 1 (fun _ => true) (fun s => s.hl) s

/-- CALL n16 (R271). -/
def execCall (n : Word) (s : State) : Result :=
  callTo 3 (fun _ => true) n s

/-- CALL cc,n16 (R272). -/
def execCallCc (cc : Cond) (n : Word) (s : State) : Result :=
  callTo 3 (fun s => s.cond cc) n s

/-- RST 8*t (R273). -/
def execRst (t : BitVec 3) (s : State) : Result :=
  callTo 1 (fun _ => true) (8 * t.zeroExtend 16) s

/-- RET (R274). -/
def execRet (s : State) : Result :=
  returnIf (fun _ => true) s

/-- RET cc (R275). -/
def execRetCc (cc : Cond) (s : State) : Result :=
  returnIf (fun s => s.cond cc) s

/-- RETI (R276). -/
def execReti (s : State) : Result :=
  .next (s.advance 1).returnFromInterrupt

end Sys2Proof.Machine
end

