-- ==== Sys2Proof/Machine/Illegal.lean ====
section
/-! DEFINITION. The eleven unassigned bytes (30_encoding.md R101): the model fault IllegalOpcode (60_exceptions.md
R310), with the state before the step. -/

namespace Sys2Proof.Machine

/-- `raise IllegalOpcode(byte, addr)`: `addr` is where byte 0 was fetched (R310). -/
def illegalByte (byte : Byte) (s : State) : Result := .fault (.illegalOpcode byte s.pc)

/-- the unassigned byte $D3 (R101, R310). -/
def execIllegalD3 (s : State) : Result :=
  illegalByte 0xD3 s

/-- the unassigned byte $DB (R101, R310). -/
def execIllegalDB (s : State) : Result :=
  illegalByte 0xDB s

/-- the unassigned byte $DD (R101, R310). -/
def execIllegalDD (s : State) : Result :=
  illegalByte 0xDD s

/-- the unassigned byte $E3 (R101, R310). -/
def execIllegalE3 (s : State) : Result :=
  illegalByte 0xE3 s

/-- the unassigned byte $E4 (R101, R310). -/
def execIllegalE4 (s : State) : Result :=
  illegalByte 0xE4 s

/-- the unassigned byte $EB (R101, R310). -/
def execIllegalEB (s : State) : Result :=
  illegalByte 0xEB s

/-- the unassigned byte $EC (R101, R310). -/
def execIllegalEC (s : State) : Result :=
  illegalByte 0xEC s

/-- the unassigned byte $ED (R101, R310). -/
def execIllegalED (s : State) : Result :=
  illegalByte 0xED s

/-- the unassigned byte $F4 (R101, R310). -/
def execIllegalF4 (s : State) : Result :=
  illegalByte 0xF4 s

/-- the unassigned byte $FC (R101, R310). -/
def execIllegalFC (s : State) : Result :=
  illegalByte 0xFC s

/-- the unassigned byte $FD (R101, R310). -/
def execIllegalFD (s : State) : Result :=
  illegalByte 0xFD s

end Sys2Proof.Machine
end

