-- ==== Sys2Proof/Machine/IncDec.lean ====
section
/-! DEFINITION. Increments and decrements (43_incdec.md R190 to R197). -/

namespace Sys2Proof.Machine

/-- INC r8 (R190). -/
def execIncR8 (r : Reg8) (s : State) : Result :=
  incPlace (.reg r) s

/-- INC [HL] (R191). -/
def execIncInd (s : State) : Result :=
  incPlace .ind s

/-- DEC r8 (R192). -/
def execDecR8 (r : Reg8) (s : State) : Result :=
  decPlace (.reg r) s

/-- DEC [HL] (R193). -/
def execDecInd (s : State) : Result :=
  decPlace .ind s

/-- INC r16 (R194). -/
def execIncR16 (p : Reg16) (s : State) : Result :=
  let s := s.advance 1
  .next (s.setReg16 p (s.reg16 p + 1))

/-- INC SP (R195). -/
def execIncSp (s : State) : Result :=
  let s := s.advance 1
  .next (s.setSp (s.sp + 1))

/-- DEC r16 (R196). -/
def execDecR16 (p : Reg16) (s : State) : Result :=
  let s := s.advance 1
  .next (s.setReg16 p (s.reg16 p - 1))

/-- DEC SP (R197). -/
def execDecSp (s : State) : Result :=
  let s := s.advance 1
  .next (s.setSp (s.sp - 1))

end Sys2Proof.Machine
end

