-- ==== Sys2Proof/Machine/Loads8.lean ====
section
/-! DEFINITION. The 8-bit loads (40_loads8.md R120 to R138). No flag is written. -/

namespace Sys2Proof.Machine

/-- LD r8,r8' (R120). -/
def execLdR8R8 (dst src : Reg8) (s : State) : Result :=
  let s := s.advance 1
  .next (s.setReg8 dst (s.reg8 src))

/-- LD r8,n8 (R121). -/
def execLdR8N8 (r : Reg8) (n : Byte) (s : State) : Result :=
  .next ((s.advance 2).setReg8 r n)

/-- LD r8,[HL] (R122). -/
def execLdR8Ind (r : Reg8) (s : State) : Result :=
  let s := s.advance 1
  .next ((s.afterRead s.hl).setReg8 r (s.readByte s.hl))

/-- LD [HL],r8 (R123). -/
def execLdIndR8 (r : Reg8) (s : State) : Result :=
  let s := s.advance 1
  .next (s.writeByte s.hl (s.reg8 r))

/-- LD [HL],n8 (R124). -/
def execLdIndN8 (n : Byte) (s : State) : Result :=
  let s := s.advance 2
  .next (s.writeByte s.hl n)

/-- LD A,[BC] (R125). -/
def execLdABc (s : State) : Result :=
  loadA 1 s.bc s

/-- LD A,[DE] (R126). -/
def execLdADe (s : State) : Result :=
  loadA 1 s.de s

/-- LD [BC],A (R127). -/
def execLdBcA (s : State) : Result :=
  storeA 1 s.bc s

/-- LD [DE],A (R128). -/
def execLdDeA (s : State) : Result :=
  storeA 1 s.de s

/-- LD A,[n16] (R129). -/
def execLdAN16 (n : Word) (s : State) : Result :=
  loadA 3 n s

/-- LDH A,[n8] (R130). -/
def execLdhAN8 (n : Byte) (s : State) : Result :=
  loadA 2 (highPage n) s

/-- LDH [n8],A (R131). -/
def execLdhN8A (n : Byte) (s : State) : Result :=
  storeA 2 (highPage n) s

/-- LDH A,[C] (R132). -/
def execLdhAC (s : State) : Result :=
  loadA 1 (highPage s.c) s

/-- LDH [C],A (R133). -/
def execLdhCA (s : State) : Result :=
  storeA 1 (highPage s.c) s

/-- LD [n16],A (R134). -/
def execLdN16A (n : Word) (s : State) : Result :=
  storeA 3 n s

/-- LD A,[HL+] (R135). -/
def execLdAHli (s : State) : Result :=
  let s := s.advance 1
  let t := (s.afterRead s.hl).setReg8 .a (s.readByte s.hl)
  .next (t.setReg16 .hl (s.hl + 1))

/-- LD A,[HL-] (R136). -/
def execLdAHld (s : State) : Result :=
  let s := s.advance 1
  let t := (s.afterRead s.hl).setReg8 .a (s.readByte s.hl)
  .next (t.setReg16 .hl (s.hl - 1))

/-- LD [HL+],A (R137). -/
def execLdHliA (s : State) : Result :=
  let s := s.advance 1
  .next ((s.writeByte s.hl s.a).setReg16 .hl (s.hl + 1))

/-- LD [HL-],A (R138). -/
def execLdHldA (s : State) : Result :=
  let s := s.advance 1
  .next ((s.writeByte s.hl s.a).setReg16 .hl (s.hl - 1))

end Sys2Proof.Machine
end

