-- ==== Sys2Proof/Machine/Logic8.lean ====
section
/-! DEFINITION. Bitwise and logic operations on A (45_logic8.md R220 to R229). -/

namespace Sys2Proof.Machine

/-- AND n8 (R220). -/
def execAndN8 (n : Byte) (s : State) : Result :=
  logicA 2 (.imm n) true (· &&& ·) s

/-- AND r8 (R221). -/
def execAndR8 (r : Reg8) (s : State) : Result :=
  logicA 1 (.reg r) true (· &&& ·) s

/-- AND [HL] (R222). -/
def execAndInd (s : State) : Result :=
  logicA 1 .ind true (· &&& ·) s

/-- OR n8 (R223). -/
def execOrN8 (n : Byte) (s : State) : Result :=
  logicA 2 (.imm n) false (· ||| ·) s

/-- OR r8 (R224). -/
def execOrR8 (r : Reg8) (s : State) : Result :=
  logicA 1 (.reg r) false (· ||| ·) s

/-- OR [HL] (R225). -/
def execOrInd (s : State) : Result :=
  logicA 1 .ind false (· ||| ·) s

/-- XOR n8 (R226). -/
def execXorN8 (n : Byte) (s : State) : Result :=
  logicA 2 (.imm n) false (· ^^^ ·) s

/-- XOR r8 (R227). -/
def execXorR8 (r : Reg8) (s : State) : Result :=
  logicA 1 (.reg r) false (· ^^^ ·) s

/-- XOR [HL] (R228). -/
def execXorInd (s : State) : Result :=
  logicA 1 .ind false (· ^^^ ·) s

/-- CPL (R229). -/
def execCpl (s : State) : Result :=
  let s := s.advance 1
  .next ((s.setReg8 .a (255 - s.a)).setFlags s.flagZ true true s.flagC)

end Sys2Proof.Machine
end

