-- ==== Sys2Proof/Machine/Misc.lean ====
section
/-! DEFINITION. DAA, DI, EI, HALT, STOP, NOP (49_misc.md R290 to R300). -/

namespace Sys2Proof.Machine

/-- DAA (R290). -/
def execDaa (s : State) : Result :=
  let s := s.advance 1
  let r := daaAdjust s.a s.flagN s.flagH s.flagC
  .next ((s.setReg8 .a r.1).setFlags (r.1 == 0) s.flagN false r.2)

/-- DI (R292). -/
def execDi (s : State) : Result :=
  .next { s.advance 1 with ime := false, imePending := false }

/-- EI (R294). -/
def execEi (s : State) : Result :=
  .next { s.advance 1 with imePending := true }

/-- HALT (R296). -/
def execHalt (s : State) : Result :=
  let s := s.advance 1
  if s.imePending && s.pending != 0 then .refused .eiHaltPending
  else if !s.ime && s.pending != 0 then .next { s with haltBug := true }
  else .next { s with halted := true }

/-- STOP, with its second byte (R298). -/
def execStop (b : Byte) (s : State) : Result :=
  let s := s.advance 2
  if b ≠ 0 then .refused .stopOperand
  else
    match s.platform.model with
    | .dmg => .refused .stopOnDmg
    | .cgb =>
      if s.key1Arm then .next { s with doubleSpeed := !s.doubleSpeed, key1Arm := false }
      else .next { s with stopped := true }

/-- NOP (R300). -/
def execNop (s : State) : Result :=
  .next (s.advance 1)

end Sys2Proof.Machine
end

