-- ==== Sys2Proof/Machine/Shifts8.lean ====
section
/-! DEFINITION. The 8-bit shifts and rotates (41_shifts8.md R150 to R169). -/

namespace Sys2Proof.Machine

/-- RLA (R150). -/
def execRla (s : State) : Result :=
  rotateA .rl s

/-- RLCA (R151). -/
def execRlca (s : State) : Result :=
  rotateA .rlc s

/-- RRA (R152). -/
def execRra (s : State) : Result :=
  rotateA .rr s

/-- RRCA (R153). -/
def execRrca (s : State) : Result :=
  rotateA .rrc s

/-- RL r8 (R154). -/
def execRlR8 (r : Reg8) (s : State) : Result :=
  shiftPlace .rl (.reg r) s

/-- RL [HL] (R155). -/
def execRlInd (s : State) : Result :=
  shiftPlace .rl .ind s

/-- RLC r8 (R156). -/
def execRlcR8 (r : Reg8) (s : State) : Result :=
  shiftPlace .rlc (.reg r) s

/-- RLC [HL] (R157). -/
def execRlcInd (s : State) : Result :=
  shiftPlace .rlc .ind s

/-- RR r8 (R158). -/
def execRrR8 (r : Reg8) (s : State) : Result :=
  shiftPlace .rr (.reg r) s

/-- RR [HL] (R159). -/
def execRrInd (s : State) : Result :=
  shiftPlace .rr .ind s

/-- RRC r8 (R160). -/
def execRrcR8 (r : Reg8) (s : State) : Result :=
  shiftPlace .rrc (.reg r) s

/-- RRC [HL] (R161). -/
def execRrcInd (s : State) : Result :=
  shiftPlace .rrc .ind s

/-- SLA r8 (R162). -/
def execSlaR8 (r : Reg8) (s : State) : Result :=
  shiftPlace .sla (.reg r) s

/-- SLA [HL] (R163). -/
def execSlaInd (s : State) : Result :=
  shiftPlace .sla .ind s

/-- SRA r8 (R164). -/
def execSraR8 (r : Reg8) (s : State) : Result :=
  shiftPlace .sra (.reg r) s

/-- SRA [HL] (R165). -/
def execSraInd (s : State) : Result :=
  shiftPlace .sra .ind s

/-- SRL r8 (R166). -/
def execSrlR8 (r : Reg8) (s : State) : Result :=
  shiftPlace .srl (.reg r) s

/-- SRL [HL] (R167). -/
def execSrlInd (s : State) : Result :=
  shiftPlace .srl .ind s

/-- SWAP r8 (R168). -/
def execSwapR8 (r : Reg8) (s : State) : Result :=
  shiftPlace .swap (.reg r) s

/-- SWAP [HL] (R169). -/
def execSwapInd (s : State) : Result :=
  shiftPlace .swap .ind s

end Sys2Proof.Machine
end

