-- ==== Sys2Proof/Machine/Stack.lean ====
section
/-! DEFINITION. The stack instructions (42_stack.md R182 to R185). -/

namespace Sys2Proof.Machine

/-- PUSH r16 (R182). -/
def execPushR16 (p : Reg16) (s : State) : Result :=
  let s := s.advance 1
  .next (s.push16 (s.reg16 p))

/-- POP r16 (R183). -/
def execPopR16 (p : Reg16) (s : State) : Result :=
  let s := s.advance 1
  .next (s.afterPop.setReg16 p s.popWord)

/-- PUSH AF (R184). -/
def execPushAf (s : State) : Result :=
  let s := s.advance 1
  .next (s.push16 s.af)

/-- POP AF (R185). -/
def execPopAf (s : State) : Result :=
  let s := s.advance 1
  .next (s.afterPop.setAf s.popWord)

end Sys2Proof.Machine
end

