-- ==== Sys2Proof/Machine/Dispatch.lean ====
section
/-! DEFINITION. The dispatch: one arm per instruction, each one call of its meaning. `s` is the state at
the instruction's address, its bytes already read (log 12). -/

namespace Sys2Proof.Machine

def exec (i : Instr) (s : State) : Host.Outcome State Fault Refusal :=
  match i with
  | .nop => Sys2Proof.Machine.execNop s
  | .ldR16N16 p n => Sys2Proof.Machine.execLdR16N16 p n s
  | .ldSpN16 n => Sys2Proof.Machine.execLdSpN16 n s
  | .ldBcA => Sys2Proof.Machine.execLdBcA s
  | .ldDeA => Sys2Proof.Machine.execLdDeA s
  | .ldHliA => Sys2Proof.Machine.execLdHliA s
  | .ldHldA => Sys2Proof.Machine.execLdHldA s
  | .ldABc => Sys2Proof.Machine.execLdABc s
  | .ldADe => Sys2Proof.Machine.execLdADe s
  | .ldAHli => Sys2Proof.Machine.execLdAHli s
  | .ldAHld => Sys2Proof.Machine.execLdAHld s
  | .incR16 p => Sys2Proof.Machine.execIncR16 p s
  | .incSp => Sys2Proof.Machine.execIncSp s
  | .decR16 p => Sys2Proof.Machine.execDecR16 p s
  | .decSp => Sys2Proof.Machine.execDecSp s
  | .incR8 r => Sys2Proof.Machine.execIncR8 r s
  | .incInd => Sys2Proof.Machine.execIncInd s
  | .decR8 r => Sys2Proof.Machine.execDecR8 r s
  | .decInd => Sys2Proof.Machine.execDecInd s
  | .ldR8N8 r n => Sys2Proof.Machine.execLdR8N8 r n s
  | .ldIndN8 n => Sys2Proof.Machine.execLdIndN8 n s
  | .rlca => Sys2Proof.Machine.execRlca s
  | .rrca => Sys2Proof.Machine.execRrca s
  | .rla => Sys2Proof.Machine.execRla s
  | .rra => Sys2Proof.Machine.execRra s
  | .daa => Sys2Proof.Machine.execDaa s
  | .cpl => Sys2Proof.Machine.execCpl s
  | .scf => Sys2Proof.Machine.execScf s
  | .ccf => Sys2Proof.Machine.execCcf s
  | .ldN16Sp n => Sys2Proof.Machine.execLdN16Sp n s
  | .stop b => Sys2Proof.Machine.execStop b s
  | .jr e => Sys2Proof.Machine.execJr e s
  | .jrCc cc e => Sys2Proof.Machine.execJrCc cc e s
  | .addHlR16 p => Sys2Proof.Machine.execAddHlR16 p s
  | .addHlSp => Sys2Proof.Machine.execAddHlSp s
  | .ldR8R8 dst src => Sys2Proof.Machine.execLdR8R8 dst src s
  | .ldR8Ind r => Sys2Proof.Machine.execLdR8Ind r s
  | .ldIndR8 r => Sys2Proof.Machine.execLdIndR8 r s
  | .halt => Sys2Proof.Machine.execHalt s
  | .addR8 r => Sys2Proof.Machine.execAddR8 r s
  | .addInd => Sys2Proof.Machine.execAddInd s
  | .addN8 n => Sys2Proof.Machine.execAddN8 n s
  | .adcR8 r => Sys2Proof.Machine.execAdcR8 r s
  | .adcInd => Sys2Proof.Machine.execAdcInd s
  | .adcN8 n => Sys2Proof.Machine.execAdcN8 n s
  | .subR8 r => Sys2Proof.Machine.execSubR8 r s
  | .subInd => Sys2Proof.Machine.execSubInd s
  | .subN8 n => Sys2Proof.Machine.execSubN8 n s
  | .sbcR8 r => Sys2Proof.Machine.execSbcR8 r s
  | .sbcInd => Sys2Proof.Machine.execSbcInd s
  | .sbcN8 n => Sys2Proof.Machine.execSbcN8 n s
  | .andR8 r => Sys2Proof.Machine.execAndR8 r s
  | .andInd => Sys2Proof.Machine.execAndInd s
  | .andN8 n => Sys2Proof.Machine.execAndN8 n s
  | .xorR8 r => Sys2Proof.Machine.execXorR8 r s
  | .xorInd => Sys2Proof.Machine.execXorInd s
  | .xorN8 n => Sys2Proof.Machine.execXorN8 n s
  | .orR8 r => Sys2Proof.Machine.execOrR8 r s
  | .orInd => Sys2Proof.Machine.execOrInd s
  | .orN8 n => Sys2Proof.Machine.execOrN8 n s
  | .cpR8 r => Sys2Proof.Machine.execCpR8 r s
  | .cpInd => Sys2Proof.Machine.execCpInd s
  | .cpN8 n => Sys2Proof.Machine.execCpN8 n s
  | .retCc cc => Sys2Proof.Machine.execRetCc cc s
  | .ret => Sys2Proof.Machine.execRet s
  | .reti => Sys2Proof.Machine.execReti s
  | .popR16 p => Sys2Proof.Machine.execPopR16 p s
  | .popAf => Sys2Proof.Machine.execPopAf s
  | .pushR16 p => Sys2Proof.Machine.execPushR16 p s
  | .pushAf => Sys2Proof.Machine.execPushAf s
  | .jpCc cc n => Sys2Proof.Machine.execJpCc cc n s
  | .jp n => Sys2Proof.Machine.execJp n s
  | .jpHl => Sys2Proof.Machine.execJpHl s
  | .callCc cc n => Sys2Proof.Machine.execCallCc cc n s
  | .call n => Sys2Proof.Machine.execCall n s
  | .rst t => Sys2Proof.Machine.execRst t s
  | .ldhN8A n => Sys2Proof.Machine.execLdhN8A n s
  | .ldhAN8 n => Sys2Proof.Machine.execLdhAN8 n s
  | .ldhCA => Sys2Proof.Machine.execLdhCA s
  | .ldhAC => Sys2Proof.Machine.execLdhAC s
  | .ldN16A n => Sys2Proof.Machine.execLdN16A n s
  | .ldAN16 n => Sys2Proof.Machine.execLdAN16 n s
  | .addSpE8 e => Sys2Proof.Machine.execAddSpE8 e s
  | .ldHlSpE8 e => Sys2Proof.Machine.execLdHlSpE8 e s
  | .ldSpHl => Sys2Proof.Machine.execLdSpHl s
  | .di => Sys2Proof.Machine.execDi s
  | .ei => Sys2Proof.Machine.execEi s
  | .illegalD3 => Sys2Proof.Machine.execIllegalD3 s
  | .illegalDB => Sys2Proof.Machine.execIllegalDB s
  | .illegalDD => Sys2Proof.Machine.execIllegalDD s
  | .illegalE3 => Sys2Proof.Machine.execIllegalE3 s
  | .illegalE4 => Sys2Proof.Machine.execIllegalE4 s
  | .illegalEB => Sys2Proof.Machine.execIllegalEB s
  | .illegalEC => Sys2Proof.Machine.execIllegalEC s
  | .illegalED => Sys2Proof.Machine.execIllegalED s
  | .illegalF4 => Sys2Proof.Machine.execIllegalF4 s
  | .illegalFC => Sys2Proof.Machine.execIllegalFC s
  | .illegalFD => Sys2Proof.Machine.execIllegalFD s
  | .rlcR8 r => Sys2Proof.Machine.execRlcR8 r s
  | .rlcInd => Sys2Proof.Machine.execRlcInd s
  | .rrcR8 r => Sys2Proof.Machine.execRrcR8 r s
  | .rrcInd => Sys2Proof.Machine.execRrcInd s
  | .rlR8 r => Sys2Proof.Machine.execRlR8 r s
  | .rlInd => Sys2Proof.Machine.execRlInd s
  | .rrR8 r => Sys2Proof.Machine.execRrR8 r s
  | .rrInd => Sys2Proof.Machine.execRrInd s
  | .slaR8 r => Sys2Proof.Machine.execSlaR8 r s
  | .slaInd => Sys2Proof.Machine.execSlaInd s
  | .sraR8 r => Sys2Proof.Machine.execSraR8 r s
  | .sraInd => Sys2Proof.Machine.execSraInd s
  | .swapR8 r => Sys2Proof.Machine.execSwapR8 r s
  | .swapInd => Sys2Proof.Machine.execSwapInd s
  | .srlR8 r => Sys2Proof.Machine.execSrlR8 r s
  | .srlInd => Sys2Proof.Machine.execSrlInd s
  | .bitR8 u r => Sys2Proof.Machine.execBitR8 u r s
  | .bitInd u => Sys2Proof.Machine.execBitInd u s
  | .resR8 u r => Sys2Proof.Machine.execResR8 u r s
  | .resInd u => Sys2Proof.Machine.execResInd u s
  | .setR8 u r => Sys2Proof.Machine.execSetR8 u r s
  | .setInd u => Sys2Proof.Machine.execSetInd u s

end Sys2Proof.Machine
end

