-- ==== Sys2Proof/Machine/Step.lean ====
section
/-! DEFINITION. One step of the machine (60_exceptions.md R316), and placing an instruction for it. -/

namespace Sys2Proof.Machine

/-- One step (R316): a wait that goes on, or one interrupt taken, or one instruction fetched and
executed to completion. -/
def step (s : State) : Host.Outcome State Fault Refusal :=
  match s.prepare with
  | .idle t => .next t
  | .interrupt i t => .next (t.enterInterrupt i)
  | .execute t => completeStep t.imePending (exec t.fetch.1 t.fetch.2)

/-- `s` with the instruction of `w` where `step` fetches its next one (log 9, 21). -/
def State.withFetchWord (s : State) (nbits w : Nat) : State := s.plantWord nbits w

end Sys2Proof.Machine
end

