-- ==== Sys2Proof/Machine/Assembler.lean ====
section
/-! DEFINITION. The assembler level (30_encoding.md R98, R105, R106): the spelling of each instruction,
and the operand bits JR and RST store for a target address (log 24). -/

namespace Sys2Proof

/-! ## Targets -/

/-- The target of a JR at `addr` that stores `e` (R98). -/
def jrTarget (addr : Addr) (e : Byte) : Addr := addr + 2 + sext16 e

/-- The e8 a JR at `addr` stores for `target` (R98): the distance from the next instruction, counted
mod 65536, which must lie in -128..127. -/
def jrOffset (addr target : Addr) : Option Byte :=
  let dist := target - (addr + 2)
  if -128 ≤ dist.toInt ∧ dist.toInt ≤ 127 then some (lo8 dist) else none

/-- The `t` an RST stores for `target`: one of the eight targets `8 * t` (R97, R106). -/
def rstField (target : Addr) : Option (BitVec 3) :=
  if target.toNat % 8 = 0 ∧ target.toNat < 64 then some (BitVec.ofNat 3 (target.toNat / 8)) else none

/-! ## Spellings -/

/-- A register's name (R106). -/
def Reg8.spelling : Reg8 → String
  | .a => "A"
  | .b => "B"
  | .c => "C"
  | .d => "D"
  | .e => "E"
  | .h => "H"
  | .l => "L"

/-- A register pair's name (R106). -/
def Reg16.spelling : Reg16 → String
  | .bc => "BC"
  | .de => "DE"
  | .hl => "HL"

/-- A condition's name (R106). -/
def Cond.spelling : Cond → String
  | .nz => "NZ"
  | .z => "Z"
  | .nc => "NC"
  | .c => "C"

/-- One hexadecimal digit. -/
def hexDigit (n : Nat) : String := String.ofList (("0123456789ABCDEF".toList.drop (n % 16)).take 1)

/-- The two hexadecimal digits of a byte. -/
def hexByte (b : Byte) : String := hexDigit (b.toNat / 16) ++ hexDigit b.toNat

/-- A byte as an operand (R106). -/
def hex8 (b : Byte) : String := "$" ++ hexByte b

/-- A word as an operand (R106). -/
def hex16 (w : Word) : String := "$" ++ hexByte (hi8 w) ++ hexByte (lo8 w)

/-- A signed byte after SP: its sign always written. -/
def signed (e : Byte) : String :=
  if 0 ≤ e.toInt then "+" ++ toString e.toInt else toString e.toInt

/-- The spelling of an instruction at `addr` (R105): the destination first, `[..]` for memory, A left
out of the 8-bit arithmetic and logic, JR and RST with their target. `none` for what no assembler
emits: an unassigned byte (R101), STOP with another second byte than $00 (R102). -/
def Instr.spelling (addr : Addr) : Instr → Option String
  | .nop => some "NOP"
  | .ldR16N16 p n => some ("LD " ++ p.spelling ++ ", " ++ hex16 n)
  | .ldSpN16 n => some ("LD SP, " ++ hex16 n)
  | .ldBcA => some "LD [BC], A"
  | .ldDeA => some "LD [DE], A"
  | .ldHliA => some "LD [HL+], A"
  | .ldHldA => some "LD [HL-], A"
  | .ldABc => some "LD A, [BC]"
  | .ldADe => some "LD A, [DE]"
  | .ldAHli => some "LD A, [HL+]"
  | .ldAHld => some "LD A, [HL-]"
  | .incR16 p => some ("INC " ++ p.spelling)
  | .incSp => some "INC SP"
  | .decR16 p => some ("DEC " ++ p.spelling)
  | .decSp => some "DEC SP"
  | .incR8 r => some ("INC " ++ r.spelling)
  | .incInd => some "INC [HL]"
  | .decR8 r => some ("DEC " ++ r.spelling)
  | .decInd => some "DEC [HL]"
  | .ldR8N8 r n => some ("LD " ++ r.spelling ++ ", " ++ hex8 n)
  | .ldIndN8 n => some ("LD [HL], " ++ hex8 n)
  | .rlca => some "RLCA"
  | .rrca => some "RRCA"
  | .rla => some "RLA"
  | .rra => some "RRA"
  | .daa => some "DAA"
  | .cpl => some "CPL"
  | .scf => some "SCF"
  | .ccf => some "CCF"
  | .ldN16Sp n => some ("LD [" ++ hex16 n ++ "], SP")
  | .stop b => if b = 0 then some "STOP" else none
  | .jr e => some ("JR " ++ hex16 (jrTarget addr e))
  | .jrCc cc e => some ("JR " ++ cc.spelling ++ ", " ++ hex16 (jrTarget addr e))
  | .addHlR16 p => some ("ADD HL, " ++ p.spelling)
  | .addHlSp => some "ADD HL, SP"
  | .ldR8R8 dst src => some ("LD " ++ dst.spelling ++ ", " ++ src.spelling)
  | .ldR8Ind r => some ("LD " ++ r.spelling ++ ", [HL]")
  | .ldIndR8 r => some ("LD [HL], " ++ r.spelling)
  | .halt => some "HALT"
  | .addR8 r => some ("ADD " ++ r.spelling)
  | .addInd => some "ADD [HL]"
  | .addN8 n => some ("ADD " ++ hex8 n)
  | .adcR8 r => some ("ADC " ++ r.spelling)
  | .adcInd => some "ADC [HL]"
  | .adcN8 n => some ("ADC " ++ hex8 n)
  | .subR8 r => some ("SUB " ++ r.spelling)
  | .subInd => some "SUB [HL]"
  | .subN8 n => some ("SUB " ++ hex8 n)
  | .sbcR8 r => some ("SBC " ++ r.spelling)
  | .sbcInd => some "SBC [HL]"
  | .sbcN8 n => some ("SBC " ++ hex8 n)
  | .andR8 r => some ("AND " ++ r.spelling)
  | .andInd => some "AND [HL]"
  | .andN8 n => some ("AND " ++ hex8 n)
  | .xorR8 r => some ("XOR " ++ r.spelling)
  | .xorInd => some "XOR [HL]"
  | .xorN8 n => some ("XOR " ++ hex8 n)
  | .orR8 r => some ("OR " ++ r.spelling)
  | .orInd => some "OR [HL]"
  | .orN8 n => some ("OR " ++ hex8 n)
  | .cpR8 r => some ("CP " ++ r.spelling)
  | .cpInd => some "CP [HL]"
  | .cpN8 n => some ("CP " ++ hex8 n)
  | .retCc cc => some ("RET " ++ cc.spelling)
  | .ret => some "RET"
  | .reti => some "RETI"
  | .popR16 p => some ("POP " ++ p.spelling)
  | .popAf => some "POP AF"
  | .pushR16 p => some ("PUSH " ++ p.spelling)
  | .pushAf => some "PUSH AF"
  | .jpCc cc n => some ("JP " ++ cc.spelling ++ ", " ++ hex16 n)
  | .jp n => some ("JP " ++ hex16 n)
  | .jpHl => some "JP HL"
  | .callCc cc n => some ("CALL " ++ cc.spelling ++ ", " ++ hex16 n)
  | .call n => some ("CALL " ++ hex16 n)
  | .rst t => some ("RST " ++ hex8 (8 * t.zeroExtend 8))
  | .ldhN8A n => some ("LDH [" ++ hex8 n ++ "], A")
  | .ldhAN8 n => some ("LDH A, [" ++ hex8 n ++ "]")
  | .ldhCA => some "LDH [C], A"
  | .ldhAC => some "LDH A, [C]"
  | .ldN16A n => some ("LD [" ++ hex16 n ++ "], A")
  | .ldAN16 n => some ("LD A, [" ++ hex16 n ++ "]")
  | .addSpE8 e => some ("ADD SP, " ++ toString e.toInt)
  | .ldHlSpE8 e => some ("LD HL, SP" ++ signed e)
  | .ldSpHl => some "LD SP, HL"
  | .di => some "DI"
  | .ei => some "EI"
  | .illegalD3 => none
  | .illegalDB => none
  | .illegalDD => none
  | .illegalE3 => none
  | .illegalE4 => none
  | .illegalEB => none
  | .illegalEC => none
  | .illegalED => none
  | .illegalF4 => none
  | .illegalFC => none
  | .illegalFD => none
  | .rlcR8 r => some ("RLC " ++ r.spelling)
  | .rlcInd => some "RLC [HL]"
  | .rrcR8 r => some ("RRC " ++ r.spelling)
  | .rrcInd => some "RRC [HL]"
  | .rlR8 r => some ("RL " ++ r.spelling)
  | .rlInd => some "RL [HL]"
  | .rrR8 r => some ("RR " ++ r.spelling)
  | .rrInd => some "RR [HL]"
  | .slaR8 r => some ("SLA " ++ r.spelling)
  | .slaInd => some "SLA [HL]"
  | .sraR8 r => some ("SRA " ++ r.spelling)
  | .sraInd => some "SRA [HL]"
  | .swapR8 r => some ("SWAP " ++ r.spelling)
  | .swapInd => some "SWAP [HL]"
  | .srlR8 r => some ("SRL " ++ r.spelling)
  | .srlInd => some "SRL [HL]"
  | .bitR8 u r => some ("BIT " ++ toString u.toNat ++ ", " ++ r.spelling)
  | .bitInd u => some ("BIT " ++ toString u.toNat ++ ", [HL]")
  | .resR8 u r => some ("RES " ++ toString u.toNat ++ ", " ++ r.spelling)
  | .resInd u => some ("RES " ++ toString u.toNat ++ ", [HL]")
  | .setR8 u r => some ("SET " ++ toString u.toNat ++ ", " ++ r.spelling)
  | .setInd u => some ("SET " ++ toString u.toNat ++ ", [HL]")

end Sys2Proof
end

