-- ==== Sys2Proof/Machine/Timing.lean ====
section
/-! DEFINITION. Timing as the spec records it (70_reset_and_hazards.md R362, R365): a count of M-cycles
for each instruction, as data. No state and no rule depends on a count (log 19). -/

namespace Sys2Proof

/-- The count of an instruction (R365): one number, a taken and a not-taken number, or none given. -/
inductive MCycles where
  | always (n : Nat)
  | branch (taken notTaken : Nat)
  | unstated
deriving DecidableEq, Repr

/-- The M-cycles of each instruction (R365). -/
def Instr.mCycles : Instr → MCycles
  | .nop => .always 1
  | .ldR16N16 _ _ => .always 3
  | .ldSpN16 _ => .always 3
  | .ldBcA => .always 2
  | .ldDeA => .always 2
  | .ldHliA => .always 2
  | .ldHldA => .always 2
  | .ldABc => .always 2
  | .ldADe => .always 2
  | .ldAHli => .always 2
  | .ldAHld => .always 2
  | .incR16 _ => .always 2
  | .incSp => .always 2
  | .decR16 _ => .always 2
  | .decSp => .always 2
  | .incR8 _ => .always 1
  | .incInd => .always 3
  | .decR8 _ => .always 1
  | .decInd => .always 3
  | .ldR8N8 _ _ => .always 2
  | .ldIndN8 _ => .always 3
  | .rlca => .always 1
  | .rrca => .always 1
  | .rla => .always 1
  | .rra => .always 1
  | .daa => .always 1
  | .cpl => .always 1
  | .scf => .always 1
  | .ccf => .always 1
  | .ldN16Sp _ => .always 5
  | .stop _ => .unstated
  | .jr _ => .always 3
  | .jrCc _ _ => .branch 3 2
  | .addHlR16 _ => .always 2
  | .addHlSp => .always 2
  | .ldR8R8 _ _ => .always 1
  | .ldR8Ind _ => .always 2
  | .ldIndR8 _ => .always 2
  | .halt => .unstated
  | .addR8 _ => .always 1
  | .addInd => .always 2
  | .addN8 _ => .always 2
  | .adcR8 _ => .always 1
  | .adcInd => .always 2
  | .adcN8 _ => .always 2
  | .subR8 _ => .always 1
  | .subInd => .always 2
  | .subN8 _ => .always 2
  | .sbcR8 _ => .always 1
  | .sbcInd => .always 2
  | .sbcN8 _ => .always 2
  | .andR8 _ => .always 1
  | .andInd => .always 2
  | .andN8 _ => .always 2
  | .xorR8 _ => .always 1
  | .xorInd => .always 2
  | .xorN8 _ => .always 2
  | .orR8 _ => .always 1
  | .orInd => .always 2
  | .orN8 _ => .always 2
  | .cpR8 _ => .always 1
  | .cpInd => .always 2
  | .cpN8 _ => .always 2
  | .retCc _ => .branch 5 2
  | .ret => .always 4
  | .reti => .always 4
  | .popR16 _ => .always 3
  | .popAf => .always 3
  | .pushR16 _ => .always 4
  | .pushAf => .always 4
  | .jpCc _ _ => .branch 4 3
  | .jp _ => .always 4
  | .jpHl => .always 1
  | .callCc _ _ => .branch 6 3
  | .call _ => .always 6
  | .rst _ => .always 4
  | .ldhN8A _ => .always 3
  | .ldhAN8 _ => .always 3
  | .ldhCA => .always 2
  | .ldhAC => .always 2
  | .ldN16A _ => .always 4
  | .ldAN16 _ => .always 4
  | .addSpE8 _ => .always 4
  | .ldHlSpE8 _ => .always 3
  | .ldSpHl => .always 2
  | .di => .always 1
  | .ei => .always 1
  | .illegalD3 => .unstated
  | .illegalDB => .unstated
  | .illegalDD => .unstated
  | .illegalE3 => .unstated
  | .illegalE4 => .unstated
  | .illegalEB => .unstated
  | .illegalEC => .unstated
  | .illegalED => .unstated
  | .illegalF4 => .unstated
  | .illegalFC => .unstated
  | .illegalFD => .unstated
  | .rlcR8 _ => .always 2
  | .rlcInd => .always 4
  | .rrcR8 _ => .always 2
  | .rrcInd => .always 4
  | .rlR8 _ => .always 2
  | .rlInd => .always 4
  | .rrR8 _ => .always 2
  | .rrInd => .always 4
  | .slaR8 _ => .always 2
  | .slaInd => .always 4
  | .sraR8 _ => .always 2
  | .sraInd => .always 4
  | .swapR8 _ => .always 2
  | .swapInd => .always 4
  | .srlR8 _ => .always 2
  | .srlInd => .always 4
  | .bitR8 _ _ => .always 2
  | .bitInd _ => .always 3
  | .resR8 _ _ => .always 2
  | .resInd _ => .always 4
  | .setR8 _ _ => .always 2
  | .setInd _ => .always 4

/-- The M-cycles of interrupt entry (R318, R365). -/
def interruptEntryCycles : Nat := 5

/-- Clock periods in an M-cycle (R6, R362), unused by any rule. -/
def tPerM : Nat := 4

end Sys2Proof
end

