-- ==== Sys2Proof/WellFormed.lean ====
section
/-! DEFINITION. Which terms of `Instr` are instructions an assembler emits. The operand types already
hold register, pair, condition, bit and target codes to the values the encoding admits (30_encoding.md
R94, R95, R97); two checks remain. -/

namespace Sys2Proof

/-- The byte of an unassigned row (30_encoding.md R101), `none` for an instruction. -/
def Instr.unassigned? : Instr → Option Byte
  | .illegalD3 => some 0xD3
  | .illegalDB => some 0xDB
  | .illegalDD => some 0xDD
  | .illegalE3 => some 0xE3
  | .illegalE4 => some 0xE4
  | .illegalEB => some 0xEB
  | .illegalEC => some 0xEC
  | .illegalED => some 0xED
  | .illegalF4 => some 0xF4
  | .illegalFC => some 0xFC
  | .illegalFD => some 0xFD
  | .nop | .ldR16N16 _ _ | .ldSpN16 _ | .ldBcA | .ldDeA | .ldHliA | .ldHldA | .ldABc | .ldADe
  | .ldAHli | .ldAHld | .incR16 _ | .incSp | .decR16 _ | .decSp | .incR8 _ | .incInd | .decR8 _
  | .decInd | .ldR8N8 _ _ | .ldIndN8 _ | .rlca | .rrca | .rla | .rra | .daa | .cpl | .scf | .ccf
  | .ldN16Sp _ | .stop _ | .jr _ | .jrCc _ _ | .addHlR16 _ | .addHlSp | .ldR8R8 _ _ | .ldR8Ind _
  | .ldIndR8 _ | .halt | .addR8 _ | .addInd | .addN8 _ | .adcR8 _ | .adcInd | .adcN8 _ | .subR8 _
  | .subInd | .subN8 _ | .sbcR8 _ | .sbcInd | .sbcN8 _ | .andR8 _ | .andInd | .andN8 _ | .xorR8 _
  | .xorInd | .xorN8 _ | .orR8 _ | .orInd | .orN8 _ | .cpR8 _ | .cpInd | .cpN8 _ | .retCc _ | .ret
  | .reti | .popR16 _ | .popAf | .pushR16 _ | .pushAf | .jpCc _ _ | .jp _ | .jpHl | .callCc _ _
  | .call _ | .rst _ | .ldhN8A _ | .ldhAN8 _ | .ldhCA | .ldhAC | .ldN16A _ | .ldAN16 _
  | .addSpE8 _ | .ldHlSpE8 _ | .ldSpHl | .di | .ei | .rlcR8 _ | .rlcInd | .rrcR8 _ | .rrcInd
  | .rlR8 _ | .rlInd | .rrR8 _ | .rrInd | .slaR8 _ | .slaInd | .sraR8 _ | .sraInd | .swapR8 _
  | .swapInd | .srlR8 _ | .srlInd | .bitR8 _ _ | .bitInd _ | .resR8 _ _ | .resInd _ | .setR8 _ _
  | .setInd _ => none

/-- STOP is followed by $00 (R102); every other instruction has no padding. -/
def Instr.paddingOk : Instr → Bool
  | .stop b => b == 0
  | .nop | .ldR16N16 _ _ | .ldSpN16 _ | .ldBcA | .ldDeA | .ldHliA | .ldHldA | .ldABc | .ldADe
  | .ldAHli | .ldAHld | .incR16 _ | .incSp | .decR16 _ | .decSp | .incR8 _ | .incInd | .decR8 _
  | .decInd | .ldR8N8 _ _ | .ldIndN8 _ | .rlca | .rrca | .rla | .rra | .daa | .cpl | .scf | .ccf
  | .ldN16Sp _ | .jr _ | .jrCc _ _ | .addHlR16 _ | .addHlSp | .ldR8R8 _ _ | .ldR8Ind _
  | .ldIndR8 _ | .halt | .addR8 _ | .addInd | .addN8 _ | .adcR8 _ | .adcInd | .adcN8 _ | .subR8 _
  | .subInd | .subN8 _ | .sbcR8 _ | .sbcInd | .sbcN8 _ | .andR8 _ | .andInd | .andN8 _ | .xorR8 _
  | .xorInd | .xorN8 _ | .orR8 _ | .orInd | .orN8 _ | .cpR8 _ | .cpInd | .cpN8 _ | .retCc _ | .ret
  | .reti | .popR16 _ | .popAf | .pushR16 _ | .pushAf | .jpCc _ _ | .jp _ | .jpHl | .callCc _ _
  | .call _ | .rst _ | .ldhN8A _ | .ldhAN8 _ | .ldhCA | .ldhAC | .ldN16A _ | .ldAN16 _
  | .addSpE8 _ | .ldHlSpE8 _ | .ldSpHl | .di | .ei | .illegalD3 | .illegalDB | .illegalDD
  | .illegalE3 | .illegalE4 | .illegalEB | .illegalEC | .illegalED | .illegalF4 | .illegalFC
  | .illegalFD | .rlcR8 _ | .rlcInd | .rrcR8 _ | .rrcInd | .rlR8 _ | .rlInd | .rrR8 _ | .rrInd
  | .slaR8 _ | .slaInd | .sraR8 _ | .sraInd | .swapR8 _ | .swapInd | .srlR8 _ | .srlInd
  | .bitR8 _ _ | .bitInd _ | .resR8 _ _ | .resInd _ | .setR8 _ _ | .setInd _ => true

/-- An instruction an assembler emits: no unassigned byte (R101), STOP's second byte $00 (R102). -/
def Instr.wellFormed (i : Instr) : Bool :=
  i.unassigned?.isNone && i.paddingOk

end Sys2Proof
end

