-- ==== Sys2Proof/Safety.lean ====
section
/-! DEFINITION. The vocabulary of the claims: what a state must satisfy (`State.Inv`), what an
instruction leaves alone, what it stores, and the tables of the spec that speak of all instructions.
Values are said in the spec's own arithmetic on numbers (00_scope.md R8), not in the machine's
operations. -/

namespace Sys2Proof.Machine

/-! ## The invariant -/

/-- What every state of a run satisfies. -/
structure State.Inv (s : State) : Prop where
  /-- Memory is in its canonical form. -/
  memCanonical : s.mem.wf
  /-- Only plain memory is listed (20_memory.md R62). -/
  memPlain : ∀ x ∈ s.mem, s.isPlain (BitVec.ofNat 16 x.1) = true
  /-- `F[3:0] = 0` in every state (10_state.md R21). -/
  flagsLow : s.f.toNat % 16 = 0
  /-- Bits 7..5 of IF are 1 (10_state.md R33). -/
  ifHigh : s.ifReg.toNat / 32 = 7
  /-- A double read waits for its fetch only where HALT left it: IME = 0, no EI under way, no wait
  (49_misc.md R296). -/
  doubleRead : s.haltBug = true →
    s.ime = false ∧ s.imePending = false ∧ s.halted = false ∧ s.stopped = false
  /-- The CPU is never halted and stopped at once (60_exceptions.md R327). -/
  oneWait : ¬(s.halted = true ∧ s.stopped = true)
  /-- A DMG has no speed switch (49_misc.md R298). -/
  dmgSpeed : s.platform.model = .dmg → s.doubleSpeed = false

/-! ## What an instruction leaves alone -/

/-- Every r8 but those listed keeps its value. -/
def RegsKept (but : List Reg8) (s t : State) : Prop := ∀ r, r ∉ but → t.reg8 r = s.reg8 r

/-- F keeps its value, bits 3..0 included. -/
def FlagsKept (s t : State) : Prop := t.f = s.f

/-- F is `128 Z + 64 N + 32 H + 16 C` (10_state.md R21). -/
def FlagsAre (z n h c : Bool) (t : State) : Prop :=
  t.f.toNat = 128 * z.toNat + 64 * n.toNat + 32 * h.toNat + 16 * c.toNat

/-- SP keeps its value. -/
def SpKept (s t : State) : Prop := t.sp = s.sp

/-- IME, ime_pending, halted, stopped, double_speed and the parameters keep their values. -/
def ControlKept (s t : State) : Prop :=
  t.ime = s.ime ∧ t.imePending = s.imePending ∧ t.halted = s.halted ∧ t.stopped = s.stopped ∧
  t.doubleSpeed = s.doubleSpeed ∧ t.platform = s.platform ∧ t.env = s.env

/-- The PC that `n` fetches leave: one less after a HALT that did not wait (00_scope.md R14). -/
def nextPc (n : Nat) (s : State) : Addr :=
  s.pc + BitVec.ofNat 16 (if s.haltBug then n - 1 else n)

/-- PC is past the `n` bytes of the instruction, and no double read is left (R14, R15). -/
def PcPast (n : Nat) (s t : State) : Prop := t.pc = nextPc n s ∧ t.haltBug = false

/-- PC is at `target`, and no double read is left. -/
def PcAt (target : Addr) (t : State) : Prop := t.pc = target ∧ t.haltBug = false

/-- The answers of the environment used up are those of the data reads listed (20_memory.md R62): one
for each address that is neither plain memory nor a register of the CPU's. -/
def Reads (l : List Addr) (s t : State) : Prop :=
  t.draws = s.draws + l.countP (fun a => (s.peek a).isNone)

/-- What a read of `a` finds after `v` was stored there (20_memory.md R62, R67; 10_state.md R33,
R34): IE holds all 8 bits, IF its low 5 with the others 1, KEY1 its bit 0 and double_speed in bit 7
with the others 1, plain memory the byte; elsewhere the environment answers. That $FF4D of a DMG reads
$FF whatever was written is log 10, that the three registers come before `Bus.ram` log 11. -/
def State.found (s : State) (a : Addr) (v : Byte) : Option Byte :=
  if a = 0xFFFF then some v
  else if a = 0xFF0F then some (BitVec.ofNat 8 (224 + v.toNat % 32))
  else if a = 0xFF4D then
    match s.platform.model with
    | .cgb => some (BitVec.ofNat 8 (128 * s.doubleSpeed.toNat + 126 + v.toNat % 2))
    | .dmg => some 0xFF
  else if s.inRam a then some v
  else none

/-- The bytes listed are stored at their addresses, and every other byte of the address space reads as
before: plain memory, IE, IF and KEY1 alike. -/
def Stores (l : List (Addr × Byte)) (s t : State) : Prop :=
  (∀ x ∈ l, t.peek x.1 = s.found x.1 x.2) ∧
  (∀ a, a ∉ l.map Prod.fst → t.peek a = s.peek a) ∧
  (0xFFFF ∉ l.map Prod.fst → t.ie = s.ie) ∧
  (0xFF0F ∉ l.map Prod.fst → t.ifReg = s.ifReg) ∧
  (0xFF4D ∉ l.map Prod.fst → t.key1Arm = s.key1Arm)

/-- The frame of an instruction of `n` bytes that goes on to the next one: its data reads, its stores,
and nothing else but registers and flags, which the statement names. -/
def Frame (n : Nat) (reads : List Addr) (stores : List (Addr × Byte)) (s t : State) : Prop :=
  SpKept s t ∧ ControlKept s t ∧ PcPast n s t ∧ Reads reads s t ∧ Stores stores s t

/-- The same, but for SP, which becomes `sp`. -/
def FrameSp (n : Nat) (sp : Word) (reads : List Addr) (stores : List (Addr × Byte)) (s t : State) :
    Prop :=
  t.sp = sp ∧ ControlKept s t ∧ PcPast n s t ∧ Reads reads s t ∧ Stores stores s t

/-- A row of the opcode table: the instruction's bytes, which decode to it and to nothing else, and its
M-cycles (30_encoding.md R104, 70_reset_and_hazards.md R365). -/
def Row (i : Instr) (bytes : List Nat) (cycles : MCycles) : Prop :=
  (encode i).map BitVec.toNat = bytes ∧ decode (encode i) = .ok (i, []) ∧ i.mCycles = cycles

/-! ## Forms of one shape -/

/-- `i`, of `n` bytes, loads register `r` from address `a`. -/
def LoadsFrom (i : Instr) (n : Nat) (r : Reg8) (a : Addr) (s : State) : Prop :=
  ∃ t, exec i s = .next t ∧
    t.reg8 r = s.readByte a ∧ RegsKept [r] s t ∧ FlagsKept s t ∧ Frame n [a] [] s t

/-- `i`, of `n` bytes, stores `v` at address `a`. -/
def StoresAt (i : Instr) (n : Nat) (a : Addr) (v : Byte) (s : State) : Prop :=
  ∃ t, exec i s = .next t ∧
    RegsKept [] s t ∧ FlagsKept s t ∧ Frame n [] [(a, v)] s t

/-- The bytes of an 8-bit operation on A whose number among the eight is `k` (30_encoding.md R94,
R99). -/
def aluBytes (k : Nat) : Src8 → List Nat
  | .reg r => [128 + 8 * k + r.code.toNat]
  | .ind => [128 + 8 * k + 6]
  | .imm n => [192 + 8 * k + 6, n.toNat]

/-- The M-cycles of such an operation (70_reset_and_hazards.md R365). -/
def aluCycles : Src8 → Nat
  | .reg _ => 1
  | .imm _ => 2
  | .ind => 2

/-- The size of such an operation in bytes. -/
def aluSize : Src8 → Nat
  | .reg _ => 1
  | .imm _ => 2
  | .ind => 1

/-- The data reads of such an operation. -/
def State.aluReads (s : State) : Src8 → List Addr
  | .ind => [s.hl]
  | _ => []

/-- ADD with each source. -/
def addForm : Src8 → Instr
  | .reg r => .addR8 r
  | .imm n => .addN8 n
  | .ind => .addInd

/-- ADC with each source. -/
def adcForm : Src8 → Instr
  | .reg r => .adcR8 r
  | .imm n => .adcN8 n
  | .ind => .adcInd

/-- SUB with each source. -/
def subForm : Src8 → Instr
  | .reg r => .subR8 r
  | .imm n => .subN8 n
  | .ind => .subInd

/-- SBC with each source. -/
def sbcForm : Src8 → Instr
  | .reg r => .sbcR8 r
  | .imm n => .sbcN8 n
  | .ind => .sbcInd

/-- AND with each source. -/
def andForm : Src8 → Instr
  | .reg r => .andR8 r
  | .imm n => .andN8 n
  | .ind => .andInd

/-- XOR with each source. -/
def xorForm : Src8 → Instr
  | .reg r => .xorR8 r
  | .imm n => .xorN8 n
  | .ind => .xorInd

/-- OR with each source. -/
def orForm : Src8 → Instr
  | .reg r => .orR8 r
  | .imm n => .orN8 n
  | .ind => .orInd

/-- CP with each source. -/
def cpForm : Src8 → Instr
  | .reg r => .cpR8 r
  | .imm n => .cpN8 n
  | .ind => .cpInd

/-- `i` adds its source and `cin` to A (44_alu8.md R215): the sum mod 256, Z, N = 0, the carries out
of bits 3 and 7. -/
def AddsToA (i : Instr) (src : Src8) (cin : Bool) (s : State) : Prop :=
  ∃ t, exec i s = .next t ∧
    (let a := s.a.toNat
     let b := (s.src8 src).toNat
     let sum := a + b + cin.toNat
     t.a.toNat = sum % 256 ∧
     FlagsAre (sum % 256 = 0) false (15 < a % 16 + b % 16 + cin.toNat) (255 < sum) t) ∧
    RegsKept [.a] s t ∧ Frame (aluSize src) (s.aluReads src) [] s t

/-- F after subtracting `b` and `cin` from `a` (44_alu8.md R215): Z, N = 1, the borrows. -/
def SubFlags (a b : Nat) (cin : Bool) (t : State) : Prop :=
  FlagsAre (((a : Int) - b - cin.toNat) % 256 = 0) true (a % 16 < b % 16 + cin.toNat)
    (a < b + cin.toNat) t

/-- `i` subtracts its source and `cin` from A (44_alu8.md R215): the difference mod 256. -/
def SubsFromA (i : Instr) (src : Src8) (cin : Bool) (s : State) : Prop :=
  ∃ t, exec i s = .next t ∧
    (let a := s.a.toNat
     let b := (s.src8 src).toNat
     (t.a.toNat : Int) = ((a : Int) - b - cin.toNat) % 256 ∧ SubFlags a b cin t) ∧
    RegsKept [.a] s t ∧ Frame (aluSize src) (s.aluReads src) [] s t

/-- `i` combines A and its source bit by bit with `f`; H becomes `half` (45_logic8.md R220 to
R228). -/
def CombinesA (i : Instr) (src : Src8) (half : Bool) (f : Bool → Bool → Bool) (s : State) : Prop :=
  ∃ t, exec i s = .next t ∧
    (∀ k < 8, t.a.getLsbD k = f (s.a.getLsbD k) ((s.src8 src).getLsbD k)) ∧
    FlagsAre (t.a.toNat = 0) false half false t ∧
    RegsKept [.a] s t ∧ Frame (aluSize src) (s.aluReads src) [] s t

/-- `sh(op, b, cin)` in the arithmetic form of 41_shifts8.md R170: the new value and the new carry. -/
def shiftValue (op : ShiftOp) (b cin : Nat) : Nat × Bool :=
  match op with
  | .rl => ((2 * b + cin) % 256, b / 128 = 1)
  | .rlc => ((2 * b) % 256 + b / 128, b / 128 = 1)
  | .rr => (128 * cin + b / 2, b % 2 = 1)
  | .rrc => (128 * (b % 2) + b / 2, b % 2 = 1)
  | .swap => (16 * (b % 16) + b / 16, false)
  | .sla => ((2 * b) % 256, b / 128 = 1)
  | .sra => (128 * (b / 128) + b / 2, b % 2 = 1)
  | .srl => (b / 2, b % 2 = 1)

/-- The number of a shift in the prefixed map (30_encoding.md R96). -/
def shiftNumber : ShiftOp → Nat
  | .rlc => 0
  | .rrc => 1
  | .rl => 2
  | .rr => 3
  | .sla => 4
  | .sra => 5
  | .swap => 6
  | .srl => 7

/-- A shift of a register. -/
def shiftR8 (op : ShiftOp) (r : Reg8) : Instr :=
  match op with
  | .rlc => .rlcR8 r
  | .rrc => .rrcR8 r
  | .rl => .rlR8 r
  | .rr => .rrR8 r
  | .sla => .slaR8 r
  | .sra => .sraR8 r
  | .swap => .swapR8 r
  | .srl => .srlR8 r

/-- A shift of the byte at HL. -/
def shiftInd : ShiftOp → Instr
  | .rlc => .rlcInd
  | .rrc => .rrcInd
  | .rl => .rlInd
  | .rr => .rrInd
  | .sla => .slaInd
  | .sra => .sraInd
  | .swap => .swapInd
  | .srl => .srlInd

/-- `i` rotates A by `op` with Z = N = H = 0 (41_shifts8.md R150 to R153). -/
def RotatesA (i : Instr) (op : ShiftOp) (s : State) : Prop :=
  ∃ t, exec i s = .next t ∧
    t.a.toNat = (shiftValue op s.a.toNat s.flagC.toNat).1 ∧
    FlagsAre false false false (shiftValue op s.a.toNat s.flagC.toNat).2 t ∧
    RegsKept [.a] s t ∧ Frame 1 [] [] s t

/-- The two registers of a pair (10_state.md R22). -/
def pairRegs : Reg16 → List Reg8
  | .bc => [.b, .c]
  | .de => [.d, .e]
  | .hl => [.h, .l]

/-- The two bytes a push of `w` stores (42_stack.md R180). -/
def pushed (s : State) (w : Word) : List (Addr × Byte) :=
  [(s.sp - 1, BitVec.ofNat 8 (w.toNat / 256)), (s.sp - 2, BitVec.ofNat 8 (w.toNat % 256))]

/-- The low byte a pop reads, at SP (42_stack.md R181). -/
def State.popLow (s : State) : Byte := s.readByte s.sp

/-- The high byte a pop reads, at SP + 1, after the low one. -/
def State.popHigh (s : State) : Byte := (s.afterRead s.sp).readByte (s.sp + 1)

/-- The addresses a pop reads, in order. -/
def State.popReads (s : State) : List Addr := [s.sp, s.sp + 1]

/-- PC becomes `target`, or the address past the `n` bytes where the condition fails; nothing else
changes (48_control.md). -/
def JumpsTo (i : Instr) (n : Nat) (taken : Bool) (target : Addr) (s : State) : Prop :=
  ∃ t, exec i s = .next t ∧
    PcAt (if taken then target else nextPc n s) t ∧ SpKept s t ∧ ControlKept s t ∧
    RegsKept [] s t ∧ FlagsKept s t ∧ Reads [] s t ∧ Stores [] s t

/-- The address past the `n` bytes is pushed and PC becomes `target`; where the condition fails PC goes
past and nothing else changes (48_control.md R271 to R273). -/
def CallsTo (i : Instr) (n : Nat) (taken : Bool) (target : Addr) (s : State) : Prop :=
  ∃ t, exec i s = .next t ∧
    PcAt (if taken then target else nextPc n s) t ∧
    t.sp = (if taken then s.sp - 2 else s.sp) ∧ ControlKept s t ∧
    RegsKept [] s t ∧ FlagsKept s t ∧ Reads [] s t ∧
    Stores (if taken then pushed s (nextPc n s) else []) s t

/-- The word on top of the stack becomes PC; where the condition fails PC goes past the one byte and
nothing else changes (48_control.md R274, R275). -/
def ReturnsIf (i : Instr) (taken : Bool) (s : State) : Prop :=
  ∃ t, exec i s = .next t ∧
    (if taken then t.pc.toNat = 256 * s.popHigh.toNat + s.popLow.toNat else t.pc = nextPc 1 s) ∧
    t.haltBug = false ∧ t.sp = (if taken then s.sp + 2 else s.sp) ∧ ControlKept s t ∧
    RegsKept [] s t ∧ FlagsKept s t ∧ Reads (if taken then s.popReads else []) s t ∧ Stores [] s t

/-- The truth of a condition by the bit of F it tests (48_control.md R265). -/
def condHolds (cc : Cond) (s : State) : Bool :=
  match cc with
  | .nz => s.f.toNat / 128 % 2 = 0
  | .z => s.f.toNat / 128 % 2 = 1
  | .nc => s.f.toNat / 16 % 2 = 0
  | .c => s.f.toNat / 16 % 2 = 1

/-- A byte as a two's complement number (00_scope.md R8). -/
def signedValue (e : Byte) : Int := if e.toNat < 128 then e.toNat else (e.toNat : Int) - 256

/-- `w` plus the signed byte, mod 65536. -/
def displaced (w : Word) (e : Byte) : Word := BitVec.ofInt 16 (w.toNat + signedValue e)

/-- Two decimal digits in one byte (00_scope.md R17). -/
def bcd (x : Nat) : Nat := 16 * (x / 10) + x % 10

/-! ## The spec's tables over all instructions -/

/-- What an instruction does to a flag (10_state.md R29). -/
inductive FlagEffect where
  | kept | zero | one | result
deriving DecidableEq, Repr

/-- Flag effects in the order Z, N, H, C. -/
structure FlagRow where
  z : FlagEffect
  n : FlagEffect
  h : FlagEffect
  c : FlagEffect
deriving DecidableEq, Repr

/-- The table of 10_state.md R29. -/
def flagRow : Instr → FlagRow
  | .rlca | .rrca | .rla | .rra => ⟨.zero, .zero, .zero, .result⟩
  | .rlcR8 _ | .rlcInd | .rrcR8 _ | .rrcInd | .rlR8 _ | .rlInd | .rrR8 _ | .rrInd
  | .slaR8 _ | .slaInd | .sraR8 _ | .sraInd | .srlR8 _ | .srlInd => ⟨.result, .zero, .zero, .result⟩
  | .swapR8 _ | .swapInd => ⟨.result, .zero, .zero, .zero⟩
  | .incR8 _ | .incInd => ⟨.result, .zero, .result, .kept⟩
  | .decR8 _ | .decInd => ⟨.result, .one, .result, .kept⟩
  | .addR8 _ | .addInd | .addN8 _ | .adcR8 _ | .adcInd | .adcN8 _ =>
    ⟨.result, .zero, .result, .result⟩
  | .subR8 _ | .subInd | .subN8 _ | .sbcR8 _ | .sbcInd | .sbcN8 _ | .cpR8 _ | .cpInd | .cpN8 _ =>
    ⟨.result, .one, .result, .result⟩
  | .andR8 _ | .andInd | .andN8 _ => ⟨.result, .zero, .one, .zero⟩
  | .orR8 _ | .orInd | .orN8 _ | .xorR8 _ | .xorInd | .xorN8 _ => ⟨.result, .zero, .zero, .zero⟩
  | .cpl => ⟨.kept, .one, .one, .kept⟩
  | .bitR8 _ _ | .bitInd _ => ⟨.result, .zero, .one, .kept⟩
  | .scf => ⟨.kept, .zero, .zero, .one⟩
  | .ccf => ⟨.kept, .zero, .zero, .result⟩
  | .addHlR16 _ | .addHlSp => ⟨.kept, .zero, .result, .result⟩
  | .addSpE8 _ | .ldHlSpE8 _ => ⟨.zero, .zero, .result, .result⟩
  | .daa => ⟨.result, .kept, .zero, .result⟩
  | .popAf => ⟨.result, .result, .result, .result⟩
  | .nop | .ldR16N16 _ _ | .ldSpN16 _ | .ldBcA | .ldDeA | .ldHliA | .ldHldA | .ldABc | .ldADe
  | .ldAHli | .ldAHld | .incR16 _ | .incSp | .decR16 _ | .decSp | .ldR8N8 _ _ | .ldIndN8 _
  | .ldN16Sp _ | .stop _ | .jr _ | .jrCc _ _ | .ldR8R8 _ _ | .ldR8Ind _ | .ldIndR8 _ | .halt
  | .retCc _ | .ret | .reti | .popR16 _ | .pushR16 _ | .pushAf | .jpCc _ _ | .jp _ | .jpHl
  | .callCc _ _ | .call _ | .rst _ | .ldhN8A _ | .ldhAN8 _ | .ldhCA | .ldhAC | .ldN16A _
  | .ldAN16 _ | .ldSpHl | .di | .ei | .illegalD3 | .illegalDB | .illegalDD | .illegalE3
  | .illegalE4 | .illegalEB | .illegalEC | .illegalED | .illegalF4 | .illegalFC | .illegalFD
  | .resR8 _ _ | .resInd _ | .setR8 _ _ | .setInd _ => ⟨.kept, .kept, .kept, .kept⟩

/-- A flag went from `old` to `new` as the effect allows. -/
def FlagEffect.allows : FlagEffect → Bool → Bool → Prop
  | .kept, old, new => new = old
  | .zero, _, new => new = false
  | .one, _, new => new = true
  | .result, _, _ => True

/-- The addresses an instruction stores to (20_memory.md R61, R66; STOP's speed switch writes KEY1,
49_misc.md R298). -/
def storesTo (i : Instr) (s : State) : List Addr :=
  match i with
  | .ldBcA => [s.bc]
  | .ldDeA => [s.de]
  | .ldHliA | .ldHldA | .ldIndN8 _ | .ldIndR8 _ | .incInd | .decInd
  | .rlcInd | .rrcInd | .rlInd | .rrInd | .slaInd | .sraInd | .swapInd | .srlInd
  | .resInd _ | .setInd _ => [s.hl]
  | .ldN16Sp n => [n, n + 1]
  | .ldhN8A n => [highPage n]
  | .ldhCA => [highPage s.c]
  | .ldN16A n => [n]
  | .pushR16 _ | .pushAf | .call _ | .rst _ => [s.sp - 1, s.sp - 2]
  | .callCc cc _ => if condHolds cc s then [s.sp - 1, s.sp - 2] else []
  | .stop _ => [key1Addr]
  | .nop | .ldR16N16 _ _ | .ldSpN16 _ | .ldABc | .ldADe | .ldAHli | .ldAHld | .incR16 _ | .incSp
  | .decR16 _ | .decSp | .incR8 _ | .decR8 _ | .ldR8N8 _ _ | .rlca | .rrca | .rla | .rra | .daa
  | .cpl | .scf | .ccf | .jr _ | .jrCc _ _ | .addHlR16 _ | .addHlSp | .ldR8R8 _ _ | .ldR8Ind _
  | .halt | .addR8 _ | .addInd | .addN8 _ | .adcR8 _ | .adcInd | .adcN8 _ | .subR8 _ | .subInd
  | .subN8 _ | .sbcR8 _ | .sbcInd | .sbcN8 _ | .andR8 _ | .andInd | .andN8 _ | .xorR8 _ | .xorInd
  | .xorN8 _ | .orR8 _ | .orInd | .orN8 _ | .cpR8 _ | .cpInd | .cpN8 _ | .retCc _ | .ret | .reti
  | .popR16 _ | .popAf | .jpCc _ _ | .jp _ | .jpHl | .ldhAN8 _ | .ldhAC | .ldAN16 _ | .addSpE8 _
  | .ldHlSpE8 _ | .ldSpHl | .di | .ei | .illegalD3 | .illegalDB | .illegalDD | .illegalE3
  | .illegalE4 | .illegalEB | .illegalEC | .illegalED | .illegalF4 | .illegalFC | .illegalFD
  | .rlcR8 _ | .rrcR8 _ | .rlR8 _ | .rrR8 _ | .slaR8 _ | .sraR8 _ | .swapR8 _ | .srlR8 _
  | .bitR8 _ _ | .bitInd _ | .resR8 _ _ | .setR8 _ _ => []

/-- The instructions that assign PC after their fetches (48_control.md). -/
def assignsPc : Instr → Bool
  | .jr _ | .jrCc _ _ | .jp _ | .jpCc _ _ | .jpHl | .call _ | .callCc _ _ | .rst _
  | .ret | .retCc _ | .reti => true
  | .nop | .ldR16N16 _ _ | .ldSpN16 _ | .ldBcA | .ldDeA | .ldHliA | .ldHldA | .ldABc | .ldADe
  | .ldAHli | .ldAHld | .incR16 _ | .incSp | .decR16 _ | .decSp | .incR8 _ | .incInd | .decR8 _
  | .decInd | .ldR8N8 _ _ | .ldIndN8 _ | .rlca | .rrca | .rla | .rra | .daa | .cpl | .scf | .ccf
  | .ldN16Sp _ | .stop _ | .addHlR16 _ | .addHlSp | .ldR8R8 _ _ | .ldR8Ind _ | .ldIndR8 _ | .halt
  | .addR8 _ | .addInd | .addN8 _ | .adcR8 _ | .adcInd | .adcN8 _ | .subR8 _ | .subInd | .subN8 _
  | .sbcR8 _ | .sbcInd | .sbcN8 _ | .andR8 _ | .andInd | .andN8 _ | .xorR8 _ | .xorInd | .xorN8 _
  | .orR8 _ | .orInd | .orN8 _ | .cpR8 _ | .cpInd | .cpN8 _ | .popR16 _ | .popAf | .pushR16 _
  | .pushAf | .ldhN8A _ | .ldhAN8 _ | .ldhCA | .ldhAC | .ldN16A _ | .ldAN16 _ | .addSpE8 _
  | .ldHlSpE8 _ | .ldSpHl | .di | .ei | .illegalD3 | .illegalDB | .illegalDD | .illegalE3
  | .illegalE4 | .illegalEB | .illegalEC | .illegalED | .illegalF4 | .illegalFC | .illegalFD
  | .rlcR8 _ | .rlcInd | .rrcR8 _ | .rrcInd | .rlR8 _ | .rlInd | .rrR8 _ | .rrInd | .slaR8 _
  | .slaInd | .sraR8 _ | .sraInd | .swapR8 _ | .swapInd | .srlR8 _ | .srlInd | .bitR8 _ _
  | .bitInd _ | .resR8 _ _ | .resInd _ | .setR8 _ _ | .setInd _ => false

/-- The instructions that write SP (10_state.md R23). -/
def writesSp : Instr → Bool
  | .ldSpN16 _ | .ldSpHl | .incSp | .decSp | .addSpE8 _ | .pushR16 _ | .pushAf | .popR16 _ | .popAf
  | .call _ | .callCc _ _ | .rst _ | .ret | .retCc _ | .reti => true
  | .nop | .ldR16N16 _ _ | .ldBcA | .ldDeA | .ldHliA | .ldHldA | .ldABc | .ldADe | .ldAHli
  | .ldAHld | .incR16 _ | .decR16 _ | .incR8 _ | .incInd | .decR8 _ | .decInd | .ldR8N8 _ _
  | .ldIndN8 _ | .rlca | .rrca | .rla | .rra | .daa | .cpl | .scf | .ccf | .ldN16Sp _ | .stop _
  | .jr _ | .jrCc _ _ | .addHlR16 _ | .addHlSp | .ldR8R8 _ _ | .ldR8Ind _ | .ldIndR8 _ | .halt
  | .addR8 _ | .addInd | .addN8 _ | .adcR8 _ | .adcInd | .adcN8 _ | .subR8 _ | .subInd | .subN8 _
  | .sbcR8 _ | .sbcInd | .sbcN8 _ | .andR8 _ | .andInd | .andN8 _ | .xorR8 _ | .xorInd | .xorN8 _
  | .orR8 _ | .orInd | .orN8 _ | .cpR8 _ | .cpInd | .cpN8 _ | .jpCc _ _ | .jp _ | .jpHl
  | .ldhN8A _ | .ldhAN8 _ | .ldhCA | .ldhAC | .ldN16A _ | .ldAN16 _ | .ldHlSpE8 _ | .di | .ei
  | .illegalD3 | .illegalDB | .illegalDD | .illegalE3 | .illegalE4 | .illegalEB | .illegalEC
  | .illegalED | .illegalF4 | .illegalFC | .illegalFD | .rlcR8 _ | .rlcInd | .rrcR8 _ | .rrcInd
  | .rlR8 _ | .rlInd | .rrR8 _ | .rrInd | .slaR8 _ | .slaInd | .sraR8 _ | .sraInd | .swapR8 _
  | .swapInd | .srlR8 _ | .srlInd | .bitR8 _ _ | .bitInd _ | .resR8 _ _ | .resInd _ | .setR8 _ _
  | .setInd _ => false

/-- The instructions that write IME, ime_pending, halted, halt_bug, stopped or double_speed (10_state.md
R30 to R34). -/
def isControl : Instr → Bool
  | .di | .ei | .reti | .halt | .stop _ => true
  | .nop | .ldR16N16 _ _ | .ldSpN16 _ | .ldBcA | .ldDeA | .ldHliA | .ldHldA | .ldABc | .ldADe
  | .ldAHli | .ldAHld | .incR16 _ | .incSp | .decR16 _ | .decSp | .incR8 _ | .incInd | .decR8 _
  | .decInd | .ldR8N8 _ _ | .ldIndN8 _ | .rlca | .rrca | .rla | .rra | .daa | .cpl | .scf | .ccf
  | .ldN16Sp _ | .jr _ | .jrCc _ _ | .addHlR16 _ | .addHlSp | .ldR8R8 _ _ | .ldR8Ind _
  | .ldIndR8 _ | .addR8 _ | .addInd | .addN8 _ | .adcR8 _ | .adcInd | .adcN8 _ | .subR8 _
  | .subInd | .subN8 _ | .sbcR8 _ | .sbcInd | .sbcN8 _ | .andR8 _ | .andInd | .andN8 _ | .xorR8 _
  | .xorInd | .xorN8 _ | .orR8 _ | .orInd | .orN8 _ | .cpR8 _ | .cpInd | .cpN8 _ | .retCc _ | .ret
  | .popR16 _ | .popAf | .pushR16 _ | .pushAf | .jpCc _ _ | .jp _ | .jpHl | .callCc _ _ | .call _
  | .rst _ | .ldhN8A _ | .ldhAN8 _ | .ldhCA | .ldhAC | .ldN16A _ | .ldAN16 _ | .addSpE8 _
  | .ldHlSpE8 _ | .ldSpHl | .illegalD3 | .illegalDB | .illegalDD | .illegalE3 | .illegalE4
  | .illegalEB | .illegalEC | .illegalED | .illegalF4 | .illegalFC | .illegalFD | .rlcR8 _
  | .rlcInd | .rrcR8 _ | .rrcInd | .rlR8 _ | .rlInd | .rrR8 _ | .rrInd | .slaR8 _ | .slaInd
  | .sraR8 _ | .sraInd | .swapR8 _ | .swapInd | .srlR8 _ | .srlInd | .bitR8 _ _ | .bitInd _
  | .resR8 _ _ | .resInd _ | .setR8 _ _ | .setInd _ => false

/-! ## Fetching byte by byte -/

/-- `n` calls of `Fetch8()` (00_scope.md R14): the bytes they return and the state they leave. -/
def State.fetchMany : Nat → State → List Byte × State
  | 0, s => ([], s)
  | n + 1, s => (s.fetch8.1 :: (State.fetchMany n s.fetch8.2).1, (State.fetchMany n s.fetch8.2).2)

/-- The state an instruction is executed from in the step at `s` where it is (60_exceptions.md R316 (0)
to (2)): the environment has moved and no wait is left. -/
def State.awake (s : State) : State := { s.afterEnv with stopped := false, halted := false }

/-- The step at `s` gets past the waits and takes no interrupt (R316 (0) to (4)). -/
def State.runs (s : State) : Prop :=
  (s.stopped = true → s.envMove.button = true) ∧
  (s.halted = true → s.afterEnv.pending ≠ 0) ∧
  (s.ime = true → s.afterEnv.pending = 0)

end Sys2Proof.Machine
end

