-- ==== Sys2Proof/Certificates/Slice0/Obligations.lean ====
section
/-! DEFINITION. The statements for the provers. Each is about every state and every operand unless it
says otherwise. `Row` gives the instruction's bytes and M-cycles; `Frame`, `RegsKept`, `FlagsKept` and
`Stores` (Sys2Proof/Safety.lean) say that nothing else changes. -/

open Sys2Proof Sys2Proof.Machine

/-! ## Encoding -/

/-- Decoding the bytes of an instruction, whatever follows them, gives it back, with every operand at
every value (R92, R104). -/
def Obligations.DecodeOfEncode : Prop :=
  ∀ (i : Instr) (rest : List Byte), decode (encode i ++ rest) = .ok (i, rest)

/-- Every byte list the decoder accepts begins with the bytes of the instruction it gives: no bit of an
instruction is dropped, no two byte lists mean the same instruction (R104). -/
def Obligations.EncodeOfDecode : Prop :=
  ∀ (l rest : List Byte) (i : Instr), decode l = .ok (i, rest) → l = encode i ++ rest

/-- Words written out from the encodings of the spec, one or more of each family. -/
def Obligations.DecodesSpecWords : Prop :=
  decode [0x41] = .ok (.ldR8R8 .b .c, []) ∧
  decode [0x3E, 0xFF] = .ok (.ldR8N8 .a 0xFF, []) ∧
  decode [0xE0, 0x4D] = .ok (.ldhN8A 0x4D, []) ∧
  decode [0xCB, 0x11] = .ok (.rlR8 .c, []) ∧
  decode [0xCB, 0x37] = .ok (.swapR8 .a, []) ∧
  decode [0x17] = .ok (.rla, []) ∧
  decode [0xD5] = .ok (.pushR16 .de, []) ∧
  decode [0xF1] = .ok (.popAf, []) ∧
  decode [0x35] = .ok (.decInd, []) ∧
  decode [0xC6, 0xC6] = .ok (.addN8 0xC6, []) ∧
  decode [0xA5] = .ok (.andR8 .l, []) ∧
  decode [0xCB, 0x7C] = .ok (.bitR8 7 .h, []) ∧
  decode [0xCB, 0xFE] = .ok (.setInd 7, []) ∧
  decode [0x21, 0x00, 0xC0] = .ok (.ldR16N16 .hl 0xC000, []) ∧
  decode [0xF8, 0x02] = .ok (.ldHlSpE8 0x02, []) ∧
  decode [0xC3, 0x50, 0x01] = .ok (.jp 0x0150, []) ∧
  decode [0xDC, 0x00, 0x20] = .ok (.callCc .c 0x2000, []) ∧
  decode [0xEF] = .ok (.rst 5, []) ∧
  decode [0x76] = .ok (.halt, []) ∧
  decode [0x10, 0x00] = .ok (.stop 0x00, [])

/-- Whatever bytes follow it, byte 0 is one of the eleven unassigned values exactly when the decoder
gives that value's row (R101, R104). -/
def Obligations.UnassignedBytesAreEleven : Prop :=
  ∀ b0 b1 b2 : Byte,
    (decodeBytes b0 b1 b2).unassigned? =
      if b0 ∈ [0xD3, 0xDB, 0xDD, 0xE3, 0xE4, 0xEB, 0xEC, 0xED, 0xF4, 0xFC, 0xFD] then some b0 else none

/-- An assembler's JR offset is the byte whose target is the address asked for; the target is the JR's
address + 2 plus the signed byte, mod 65536. RST's field is the target divided by 8. The counting of the
distance mod 65536 is the model's choice (log 24). -/
def Obligations.AssemblerTargets : Prop :=
  (∀ (addr : Addr) (e : Byte), jrTarget addr e = displaced (addr + 2) e) ∧
  (∀ (addr target : Addr) (e : Byte), jrOffset addr target = some e ↔ jrTarget addr e = target) ∧
  (∀ (target : Addr) (t : BitVec 3), rstField target = some t ↔ target.toNat = 8 * t.toNat)

/-! ## Registers and the bus -/

/-- The pairs are views of two registers each, the first-named the high byte; F's low 4 bits read 0
(R22). -/
def Obligations.PairsAreTwoRegisters : Prop :=
  (∀ s : State,
    s.bc.toNat = 256 * s.b.toNat + s.c.toNat ∧ s.de.toNat = 256 * s.d.toNat + s.e.toNat ∧
    s.hl.toNat = 256 * s.h.toNat + s.l.toNat ∧
    s.af.toNat = 256 * s.a.toNat + s.f.toNat / 16 * 16) ∧
  (∀ (s : State) (p : Reg16) (w : Word),
    (s.setReg16 p w).reg16 p = w ∧ RegsKept (pairRegs p) s (s.setReg16 p w) ∧
    (s.setReg16 .bc w).b.toNat = w.toNat / 256 ∧ (s.setReg16 .bc w).c.toNat = w.toNat % 256 ∧
    (s.setReg16 .de w).d.toNat = w.toNat / 256 ∧ (s.setReg16 .de w).e.toNat = w.toNat % 256 ∧
    (s.setReg16 .hl w).h.toNat = w.toNat / 256 ∧ (s.setReg16 .hl w).l.toNat = w.toNat % 256) ∧
  (∀ (s : State) (w : Word),
    (s.setAf w).a.toNat = w.toNat / 256 ∧ (s.setAf w).f.toNat = w.toNat % 256 / 16 * 16)

/-- A byte stored at an address is what the next read of it finds, and every other address reads as
before (R62, R70): plain memory, IE, the low 5 bits of IF and, on a CGB, bit 0 of KEY1 (R33, R34). A
known byte's read changes nothing; any other read gives the environment's next answer and uses it up
(R62, R67). The model's choices, which the rules do not state: that the answers are numbered (log 4);
that a write elsewhere leaves no trace in State (log 5); that $FF4D of a DMG, where R34 has no register
and $FF read but R62 defines none, reads $FF, ignores writes and is never behind the environment
(log 10); and that IE, IF and KEY1 take precedence over `Bus.ram` (log 11). -/
def Obligations.BusReadAfterWrite : Prop :=
  ∀ (s : State) (a : Addr) (v : Byte),
    Stores [(a, v)] s (s.writeByte a v) ∧
    (s.writeByte a v).draws = s.draws ∧ RegsKept [] s (s.writeByte a v) ∧
    FlagsKept s (s.writeByte a v) ∧ SpKept s (s.writeByte a v) ∧ ControlKept s (s.writeByte a v) ∧
    (s.writeByte a v).pc = s.pc ∧ (s.writeByte a v).haltBug = s.haltBug ∧
    (s.peek a = some v → s.readByte a = v ∧ s.afterRead a = s) ∧
    (s.peek a = none →
      s.readByte a = Config.busAnswer s.draws a ∧ s.afterRead a = { s with draws := s.draws + 1 }) ∧
    (s.peek a = none ↔ a ≠ 0xFFFF ∧ a ≠ 0xFF0F ∧ a ≠ 0xFF4D ∧ s.inRam a = false)


/-- A 16-bit access takes its low byte at the address and its high byte at the next address mod 65536,
and stores them so (R64, R65). -/
def Obligations.WordsAreLittleEndian : Prop :=
  ∀ (s : State) (a : Addr),
    (∀ lo hi, s.peek a = some lo → s.peek (a + 1) = some hi →
      (s.readWord a).toNat = 256 * hi.toNat + lo.toNat ∧ s.afterReadWord a = s) ∧
    (∀ w : Word,
      Stores [(a, BitVec.ofNat 8 (w.toNat % 256)), (a + 1, BitVec.ofNat 8 (w.toNat / 256))] s
        (s.writeWord a w)) ∧
    ((0xFFFF : Addr) + 1 = 0x0000)

/-- A word pushed on plain memory is the word the next pop returns, and SP is back (R180, R181). -/
def Obligations.PopReturnsPushed : Prop :=
  ∀ (s : State) (w : Word), s.isPlain (s.sp - 1) = true → s.isPlain (s.sp - 2) = true →
    (s.push16 w).popWord = w ∧ (s.push16 w).afterPop = { s.push16 w with sp := s.sp } ∧
    (s.push16 w).readWord (s.push16 w).sp = w

/-! ## 8-bit loads -/

/-- LD r8,r8' and LD r8,n8 (R120, R121). -/
def Obligations.LoadRegisterAndImmediate : Prop :=
  (∀ (dst r : Reg8) (s : State),
    Row (.ldR8R8 dst r) [64 + 8 * dst.code.toNat + r.code.toNat] (.always 1) ∧
    ∃ t, exec (.ldR8R8 dst r) s = .next t ∧
      t.reg8 dst = s.reg8 r ∧ RegsKept [dst] s t ∧ FlagsKept s t ∧ Frame 1 [] [] s t) ∧
  (∀ (r : Reg8) (n : Byte) (s : State),
    Row (.ldR8N8 r n) [8 * r.code.toNat + 6, n.toNat] (.always 2) ∧
    ∃ t, exec (.ldR8N8 r n) s = .next t ∧
      t.reg8 r = n ∧ RegsKept [r] s t ∧ FlagsKept s t ∧ Frame 2 [] [] s t)

/-- The loads from memory: LD r8,[HL]; LD A,[BC]; LD A,[DE]; LD A,[n16]; LDH A,[n8]; LDH A,[C]
(R122, R125, R126, R129, R130, R132). -/
def Obligations.LoadsFromMemory : Prop :=
  ∀ (r : Reg8) (n : Byte) (w : Word) (s : State),
    (Row (.ldR8Ind r) [64 + 8 * r.code.toNat + 6] (.always 2) ∧ LoadsFrom (.ldR8Ind r) 1 r s.hl s) ∧
    (Row .ldABc [0x0A] (.always 2) ∧ LoadsFrom .ldABc 1 .a s.bc s) ∧
    (Row .ldADe [0x1A] (.always 2) ∧ LoadsFrom .ldADe 1 .a s.de s) ∧
    (Row (.ldAN16 w) [0xFA, w.toNat % 256, w.toNat / 256] (.always 4) ∧
      LoadsFrom (.ldAN16 w) 3 .a w s) ∧
    (Row (.ldhAN8 n) [0xF0, n.toNat] (.always 3) ∧
      LoadsFrom (.ldhAN8 n) 2 .a (BitVec.ofNat 16 (0xFF00 + n.toNat)) s) ∧
    (Row .ldhAC [0xF2] (.always 2) ∧
      LoadsFrom .ldhAC 1 .a (BitVec.ofNat 16 (0xFF00 + s.c.toNat)) s)

/-- The stores: LD [HL],r8; LD [HL],n8; LD [BC],A; LD [DE],A; LDH [n8],A; LDH [C],A; LD [n16],A
(R123, R124, R127, R128, R131, R133, R134). -/
def Obligations.StoresToMemory : Prop :=
  ∀ (r : Reg8) (n : Byte) (w : Word) (s : State),
    (Row (.ldIndR8 r) [112 + r.code.toNat] (.always 2) ∧ StoresAt (.ldIndR8 r) 1 s.hl (s.reg8 r) s) ∧
    (Row (.ldIndN8 n) [0x36, n.toNat] (.always 3) ∧ StoresAt (.ldIndN8 n) 2 s.hl n s) ∧
    (Row .ldBcA [0x02] (.always 2) ∧ StoresAt .ldBcA 1 s.bc s.a s) ∧
    (Row .ldDeA [0x12] (.always 2) ∧ StoresAt .ldDeA 1 s.de s.a s) ∧
    (Row (.ldhN8A n) [0xE0, n.toNat] (.always 3) ∧
      StoresAt (.ldhN8A n) 2 (BitVec.ofNat 16 (0xFF00 + n.toNat)) s.a s) ∧
    (Row .ldhCA [0xE2] (.always 2) ∧
      StoresAt .ldhCA 1 (BitVec.ofNat 16 (0xFF00 + s.c.toNat)) s.a s) ∧
    (Row (.ldN16A w) [0xEA, w.toNat % 256, w.toNat / 256] (.always 4) ∧
      StoresAt (.ldN16A w) 3 w s.a s)

/-- LD A,[HL+], LD A,[HL-], LD [HL+],A, LD [HL-],A: the access is at the old HL, then HL moves by one
mod 65536 (R135 to R138). -/
def Obligations.LoadsThatMoveHL : Prop :=
  ∀ s : State,
    (Row .ldAHli [0x2A] (.always 2) ∧ ∃ t, exec .ldAHli s = .next t ∧
      t.a = s.readByte s.hl ∧ t.hl.toNat = (s.hl.toNat + 1) % 65536 ∧
      RegsKept [.a, .h, .l] s t ∧ FlagsKept s t ∧ Frame 1 [s.hl] [] s t) ∧
    (Row .ldAHld [0x3A] (.always 2) ∧ ∃ t, exec .ldAHld s = .next t ∧
      t.a = s.readByte s.hl ∧ t.hl.toNat = (s.hl.toNat + 65535) % 65536 ∧
      RegsKept [.a, .h, .l] s t ∧ FlagsKept s t ∧ Frame 1 [s.hl] [] s t) ∧
    (Row .ldHliA [0x22] (.always 2) ∧ ∃ t, exec .ldHliA s = .next t ∧
      t.hl.toNat = (s.hl.toNat + 1) % 65536 ∧
      RegsKept [.h, .l] s t ∧ FlagsKept s t ∧ Frame 1 [] [(s.hl, s.a)] s t) ∧
    (Row .ldHldA [0x32] (.always 2) ∧ ∃ t, exec .ldHldA s = .next t ∧
      t.hl.toNat = (s.hl.toNat + 65535) % 65536 ∧
      RegsKept [.h, .l] s t ∧ FlagsKept s t ∧ Frame 1 [] [(s.hl, s.a)] s t)

/-! ## Shifts and rotates -/

/-- RLA, RLCA, RRA, RRCA: the shift of A, with Z = N = H = 0 whatever the result (R150 to R153). -/
def Obligations.RotatesOfA : Prop :=
  ∀ s : State,
    (Row .rla [0x17] (.always 1) ∧ RotatesA .rla .rl s) ∧
    (Row .rlca [0x07] (.always 1) ∧ RotatesA .rlca .rlc s) ∧
    (Row .rra [0x1F] (.always 1) ∧ RotatesA .rra .rr s) ∧
    (Row .rrca [0x0F] (.always 1) ∧ RotatesA .rrca .rrc s)

/-- The eight shifts of an r8: RLC, RRC, RL, RR, SLA, SRA, SWAP, SRL (R154 to R168, even numbers, and
R170). -/
def Obligations.ShiftsOfRegisters : Prop :=
  ∀ (op : ShiftOp) (r : Reg8) (s : State),
    Row (shiftR8 op r) [0xCB, 8 * shiftNumber op + r.code.toNat] (.always 2) ∧
    ∃ t, exec (shiftR8 op r) s = .next t ∧
      (let q := shiftValue op (s.reg8 r).toNat s.flagC.toNat
       (t.reg8 r).toNat = q.1 ∧ FlagsAre (q.1 = 0) false false q.2 t) ∧
      RegsKept [r] s t ∧ Frame 2 [] [] s t

/-- The eight shifts of the byte at HL: read once, written once (R155 to R169, odd numbers). -/
def Obligations.ShiftsOfMemory : Prop :=
  ∀ (op : ShiftOp) (s : State),
    Row (shiftInd op) [0xCB, 8 * shiftNumber op + 6] (.always 4) ∧
    ∃ t, exec (shiftInd op) s = .next t ∧
      (let q := shiftValue op (s.readByte s.hl).toNat s.flagC.toNat
       FlagsAre (q.1 = 0) false false q.2 t ∧
       Frame 2 [s.hl] [(s.hl, BitVec.ofNat 8 q.1)] s t) ∧
      RegsKept [] s t


/-! ## Stack -/

/-- PUSH r16 and PUSH AF: the high byte at SP - 1, the low byte at SP - 2, SP down by 2 (R180, R182,
R184). -/
def Obligations.PushStores : Prop :=
  (∀ (p : Reg16) (s : State),
    Row (.pushR16 p) [197 + 16 * p.code.toNat] (.always 4) ∧
    ∃ t, exec (.pushR16 p) s = .next t ∧
      RegsKept [] s t ∧ FlagsKept s t ∧ FrameSp 1 (s.sp - 2) [] (pushed s (s.reg16 p)) s t) ∧
  (∀ s : State,
    Row .pushAf [0xF5] (.always 4) ∧
    ∃ t, exec .pushAf s = .next t ∧
      RegsKept [] s t ∧ FlagsKept s t ∧
      FrameSp 1 (s.sp - 2) []
        [(s.sp - 1, s.a), (s.sp - 2, BitVec.ofNat 8 (s.f.toNat / 16 * 16))] s t)

/-- POP r16 and POP AF: the low byte at SP, the high byte at SP + 1, SP up by 2; POP AF drops the low 4
bits of the flags byte (R181, R183, R185). -/
def Obligations.PopLoads : Prop :=
  (∀ (p : Reg16) (s : State),
    Row (.popR16 p) [193 + 16 * p.code.toNat] (.always 3) ∧
    ∃ t, exec (.popR16 p) s = .next t ∧
      (t.reg16 p).toNat = 256 * s.popHigh.toNat + s.popLow.toNat ∧
      RegsKept (pairRegs p) s t ∧ FlagsKept s t ∧ FrameSp 1 (s.sp + 2) s.popReads [] s t) ∧
  (∀ s : State,
    Row .popAf [0xF1] (.always 3) ∧
    ∃ t, exec .popAf s = .next t ∧
      t.a = s.popHigh ∧ t.f.toNat = s.popLow.toNat / 16 * 16 ∧
      RegsKept [.a] s t ∧ FrameSp 1 (s.sp + 2) s.popReads [] s t)

/-! ## Increments and decrements -/

/-- INC r8 and INC [HL]: the value plus 1 mod 256; Z, N = 0, H; C kept (R190, R191). -/
def Obligations.IncrementBytes : Prop :=
  (∀ (r : Reg8) (s : State),
    Row (.incR8 r) [8 * r.code.toNat + 4] (.always 1) ∧
    ∃ t, exec (.incR8 r) s = .next t ∧
      (let o := (s.reg8 r).toNat
       (t.reg8 r).toNat = (o + 1) % 256 ∧
       FlagsAre ((o + 1) % 256 = 0) false (o % 16 = 15) s.flagC t) ∧
      RegsKept [r] s t ∧ Frame 1 [] [] s t) ∧
  (∀ s : State,
    Row .incInd [0x34] (.always 3) ∧
    ∃ t, exec .incInd s = .next t ∧
      (let o := (s.readByte s.hl).toNat
       FlagsAre ((o + 1) % 256 = 0) false (o % 16 = 15) s.flagC t ∧
       Frame 1 [s.hl] [(s.hl, BitVec.ofNat 8 (o + 1))] s t) ∧
      RegsKept [] s t)

/-- DEC r8 and DEC [HL]: the value minus 1 mod 256; Z, N = 1, H; C kept (R192, R193). -/
def Obligations.DecrementBytes : Prop :=
  (∀ (r : Reg8) (s : State),
    Row (.decR8 r) [8 * r.code.toNat + 5] (.always 1) ∧
    ∃ t, exec (.decR8 r) s = .next t ∧
      (let o := (s.reg8 r).toNat
       (t.reg8 r).toNat = (o + 255) % 256 ∧
       FlagsAre ((o + 255) % 256 = 0) true (o % 16 = 0) s.flagC t) ∧
      RegsKept [r] s t ∧ Frame 1 [] [] s t) ∧
  (∀ s : State,
    Row .decInd [0x35] (.always 3) ∧
    ∃ t, exec .decInd s = .next t ∧
      (let o := (s.readByte s.hl).toNat
       FlagsAre ((o + 255) % 256 = 0) true (o % 16 = 0) s.flagC t ∧
       Frame 1 [s.hl] [(s.hl, BitVec.ofNat 8 (o + 255))] s t) ∧
      RegsKept [] s t)

/-- INC and DEC of r16 and SP: plus or minus 1 mod 65536, no flag (R194 to R197). -/
def Obligations.IncrementWords : Prop :=
  (∀ (p : Reg16) (s : State),
    (Row (.incR16 p) [16 * p.code.toNat + 3] (.always 2) ∧
      ∃ t, exec (.incR16 p) s = .next t ∧
        (t.reg16 p).toNat = ((s.reg16 p).toNat + 1) % 65536 ∧
        RegsKept (pairRegs p) s t ∧ FlagsKept s t ∧ Frame 1 [] [] s t) ∧
    (Row (.decR16 p) [16 * p.code.toNat + 11] (.always 2) ∧
      ∃ t, exec (.decR16 p) s = .next t ∧
        (t.reg16 p).toNat = ((s.reg16 p).toNat + 65535) % 65536 ∧
        RegsKept (pairRegs p) s t ∧ FlagsKept s t ∧ Frame 1 [] [] s t)) ∧
  (∀ s : State,
    (Row .incSp [0x33] (.always 2) ∧
      ∃ t, exec .incSp s = .next t ∧
        RegsKept [] s t ∧ FlagsKept s t ∧
        FrameSp 1 (BitVec.ofNat 16 (s.sp.toNat + 1)) [] [] s t) ∧
    (Row .decSp [0x3B] (.always 2) ∧
      ∃ t, exec .decSp s = .next t ∧
        RegsKept [] s t ∧ FlagsKept s t ∧
        FrameSp 1 (BitVec.ofNat 16 (s.sp.toNat + 65535)) [] [] s t))

/-! ## Arithmetic and logic on A -/

/-- ADD and ADC with r8, n8 and [HL]: the sum mod 256, Z, N = 0, the carries out of bits 3 and 7, the
carry-in counted in both (R200 to R205, R215). -/
def Obligations.AddAndAdc : Prop :=
  ∀ (src : Src8) (s : State),
    (Row (addForm src) (aluBytes 0 src) (.always (aluCycles src)) ∧
      AddsToA (addForm src) src false s) ∧
    (Row (adcForm src) (aluBytes 1 src) (.always (aluCycles src)) ∧
      AddsToA (adcForm src) src s.flagC s)

/-- SUB and SBC with r8, n8 and [HL]: the difference mod 256, Z, N = 1, the borrows (R206 to R211). -/
def Obligations.SubAndSbc : Prop :=
  ∀ (src : Src8) (s : State),
    (Row (subForm src) (aluBytes 2 src) (.always (aluCycles src)) ∧
      SubsFromA (subForm src) src false s) ∧
    (Row (sbcForm src) (aluBytes 3 src) (.always (aluCycles src)) ∧
      SubsFromA (sbcForm src) src s.flagC s)

/-- CP with r8, n8 and [HL]: the flags of SUB, so Z = 1 exactly when the argument equals A and C = 1
exactly when it is greater; A is kept (R212 to R214). -/
def Obligations.CompareForms : Prop :=
  ∀ (src : Src8) (s : State),
    Row (cpForm src) (aluBytes 7 src) (.always (aluCycles src)) ∧
    ∃ t, exec (cpForm src) s = .next t ∧
      FlagsAre (s.src8 src = s.a) true (s.a.toNat % 16 < (s.src8 src).toNat % 16)
        (s.a.toNat < (s.src8 src).toNat) t ∧
      RegsKept [] s t ∧ Frame (aluSize src) (s.aluReads src) [] s t

/-- AND, XOR and OR with r8, n8 and [HL], bit by bit; H = 1 for AND only; N = C = 0 (R220 to R228). -/
def Obligations.LogicForms : Prop :=
  ∀ (src : Src8) (s : State),
    (Row (andForm src) (aluBytes 4 src) (.always (aluCycles src)) ∧
      CombinesA (andForm src) src true (· && ·) s) ∧
    (Row (xorForm src) (aluBytes 5 src) (.always (aluCycles src)) ∧
      CombinesA (xorForm src) src false (· != ·) s) ∧
    (Row (orForm src) (aluBytes 6 src) (.always (aluCycles src)) ∧
      CombinesA (orForm src) src false (· || ·) s)

/-- CPL, SCF, CCF (R229, R241, R242). -/
def Obligations.ComplementAndCarryForms : Prop :=
  ∀ s : State,
    (Row .cpl [0x2F] (.always 1) ∧
      ∃ t, exec .cpl s = .next t ∧
        t.a.toNat = 255 - s.a.toNat ∧ FlagsAre s.flagZ true true s.flagC t ∧
        RegsKept [.a] s t ∧ Frame 1 [] [] s t) ∧
    (Row .scf [0x37] (.always 1) ∧
      ∃ t, exec .scf s = .next t ∧
        FlagsAre s.flagZ false false true t ∧ RegsKept [] s t ∧ Frame 1 [] [] s t) ∧
    (Row .ccf [0x3F] (.always 1) ∧
      ∃ t, exec .ccf s = .next t ∧
        FlagsAre s.flagZ false false (!s.flagC) t ∧ RegsKept [] s t ∧ Frame 1 [] [] s t)

/-- DAA: the adjustment of R290, in its own arithmetic. -/
def Obligations.DaaAdjusts : Prop :=
  ∀ s : State,
    Row .daa [0x27] (.always 1) ∧
    ∃ t, exec .daa s = .next t ∧
      (let a := s.a.toNat
       let low := if s.flagH = true ∨ (s.flagN = false ∧ a % 16 > 9) then 6 else 0
       let high := if s.flagC = true ∨ (s.flagN = false ∧ a > 0x99) then 0x60 else 0
       let v := if s.flagN = false then (a + (low + high)) % 256 else (a + 256 - (low + high)) % 256
       t.a.toNat = v ∧
       FlagsAre (v = 0) s.flagN false (s.flagC || (!s.flagN && decide (a > 0x99))) t) ∧
      RegsKept [.a] s t ∧ Frame 1 [] [] s t

/-- DAA makes A a BCD again: after ADD, ADC, SUB or SBC of two BCD bytes it leaves the decimal result
mod 100, and C is the hundreds carry or borrow (R290). -/
def Obligations.DaaIsDecimal : Prop :=
  ∀ (s : State) (n : Byte) (x y : Nat), x < 100 → y < 100 → s.a.toNat = bcd x → n.toNat = bcd y →
    (∃ t u, exec (.addN8 n) s = .next t ∧ exec .daa t = .next u ∧
      u.a.toNat = bcd ((x + y) % 100) ∧ u.flagC = decide (100 ≤ x + y)) ∧
    (∃ t u, exec (.adcN8 n) s = .next t ∧ exec .daa t = .next u ∧
      u.a.toNat = bcd ((x + y + s.flagC.toNat) % 100) ∧
      u.flagC = decide (100 ≤ x + y + s.flagC.toNat)) ∧
    (∃ t u, exec (.subN8 n) s = .next t ∧ exec .daa t = .next u ∧
      u.a.toNat = bcd ((x + 100 - y) % 100) ∧ u.flagC = decide (x < y)) ∧
    (∃ t u, exec (.sbcN8 n) s = .next t ∧ exec .daa t = .next u ∧
      u.a.toNat = bcd ((x + 100 - y - s.flagC.toNat) % 100) ∧
      u.flagC = decide (x < y + s.flagC.toNat))

/-! ## Bit operations -/

/-- BIT u3,r8 and BIT u3,[HL]: Z is the complement of the bit, N = 0, H = 1, C kept; nothing is written
(R235, R236). -/
def Obligations.BitTests : Prop :=
  (∀ (u : BitVec 3) (r : Reg8) (s : State),
    Row (.bitR8 u r) [0xCB, 64 + 8 * u.toNat + r.code.toNat] (.always 2) ∧
    ∃ t, exec (.bitR8 u r) s = .next t ∧
      FlagsAre ((s.reg8 r).toNat / 2 ^ u.toNat % 2 = 0) false true s.flagC t ∧
      RegsKept [] s t ∧ Frame 2 [] [] s t) ∧
  (∀ (u : BitVec 3) (s : State),
    Row (.bitInd u) [0xCB, 64 + 8 * u.toNat + 6] (.always 3) ∧
    ∃ t, exec (.bitInd u) s = .next t ∧
      FlagsAre ((s.readByte s.hl).toNat / 2 ^ u.toNat % 2 = 0) false true s.flagC t ∧
      RegsKept [] s t ∧ Frame 2 [s.hl] [] s t)

/-- RES and SET of r8 and [HL]: the bit becomes 0 or 1, the others and the flags are kept; the byte at HL
is read once and written once (R237 to R240). -/
def Obligations.BitWrites : Prop :=
  ∀ (u : BitVec 3) (r : Reg8) (s : State),
    (Row (.resR8 u r) [0xCB, 128 + 8 * u.toNat + r.code.toNat] (.always 2) ∧
      ∃ t, exec (.resR8 u r) s = .next t ∧
        (∀ k < 8, (t.reg8 r).getLsbD k = (decide (k ≠ u.toNat) && (s.reg8 r).getLsbD k)) ∧
        RegsKept [r] s t ∧ FlagsKept s t ∧ Frame 2 [] [] s t) ∧
    (Row (.setR8 u r) [0xCB, 192 + 8 * u.toNat + r.code.toNat] (.always 2) ∧
      ∃ t, exec (.setR8 u r) s = .next t ∧
        (∀ k < 8, (t.reg8 r).getLsbD k = (decide (k = u.toNat) || (s.reg8 r).getLsbD k)) ∧
        RegsKept [r] s t ∧ FlagsKept s t ∧ Frame 2 [] [] s t) ∧
    (Row (.resInd u) [0xCB, 128 + 8 * u.toNat + 6] (.always 4) ∧
      ∃ t v, exec (.resInd u) s = .next t ∧
        (∀ k < 8, v.getLsbD k = (decide (k ≠ u.toNat) && (s.readByte s.hl).getLsbD k)) ∧
        RegsKept [] s t ∧ FlagsKept s t ∧ Frame 2 [s.hl] [(s.hl, v)] s t) ∧
    (Row (.setInd u) [0xCB, 192 + 8 * u.toNat + 6] (.always 4) ∧
      ∃ t v, exec (.setInd u) s = .next t ∧
        (∀ k < 8, v.getLsbD k = (decide (k = u.toNat) || (s.readByte s.hl).getLsbD k)) ∧
        RegsKept [] s t ∧ FlagsKept s t ∧ Frame 2 [s.hl] [(s.hl, v)] s t)

/-! ## 16-bit loads and arithmetic -/

/-- LD r16,n16; LD SP,n16; LD SP,HL (R250, R251, R253). -/
def Obligations.LoadWords : Prop :=
  ∀ (p : Reg16) (w : Word) (s : State),
    (Row (.ldR16N16 p w) [16 * p.code.toNat + 1, w.toNat % 256, w.toNat / 256] (.always 3) ∧
      ∃ t, exec (.ldR16N16 p w) s = .next t ∧
        t.reg16 p = w ∧ RegsKept (pairRegs p) s t ∧ FlagsKept s t ∧ Frame 3 [] [] s t) ∧
    (Row (.ldSpN16 w) [0x31, w.toNat % 256, w.toNat / 256] (.always 3) ∧
      ∃ t, exec (.ldSpN16 w) s = .next t ∧
        RegsKept [] s t ∧ FlagsKept s t ∧ FrameSp 3 w [] [] s t) ∧
    (Row .ldSpHl [0xF9] (.always 2) ∧
      ∃ t, exec .ldSpHl s = .next t ∧
        RegsKept [] s t ∧ FlagsKept s t ∧ FrameSp 1 s.hl [] [] s t)

/-- LD [n16],SP: the low byte of SP at n16, the high byte at n16 + 1 mod 65536 (R252). -/
def Obligations.StoreSp : Prop :=
  ∀ (w : Word) (s : State),
    Row (.ldN16Sp w) [0x08, w.toNat % 256, w.toNat / 256] (.always 5) ∧
    ∃ t, exec (.ldN16Sp w) s = .next t ∧
      RegsKept [] s t ∧ FlagsKept s t ∧
      Frame 3 [] [(w, BitVec.ofNat 8 (s.sp.toNat % 256)),
        (BitVec.ofNat 16 (w.toNat + 1), BitVec.ofNat 8 (s.sp.toNat / 256))] s t

/-- LD HL,SP+e8 and ADD SP,e8: SP plus the signed byte mod 65536; Z = N = 0; H and C from the unsigned
addition of the low bytes (R254, R256, R260). -/
def Obligations.AddSignedToSp : Prop :=
  ∀ (e : Byte) (s : State),
    (Row (.ldHlSpE8 e) [0xF8, e.toNat] (.always 3) ∧
      ∃ t, exec (.ldHlSpE8 e) s = .next t ∧
        t.hl = displaced s.sp e ∧
        FlagsAre false false (15 < s.sp.toNat % 16 + e.toNat % 16) (255 < s.sp.toNat % 256 + e.toNat)
          t ∧
        RegsKept [.h, .l] s t ∧ Frame 2 [] [] s t) ∧
    (Row (.addSpE8 e) [0xE8, e.toNat] (.always 4) ∧
      ∃ t, exec (.addSpE8 e) s = .next t ∧
        FlagsAre false false (15 < s.sp.toNat % 16 + e.toNat % 16) (255 < s.sp.toNat % 256 + e.toNat)
          t ∧
        RegsKept [] s t ∧ FrameSp 2 (displaced s.sp e) [] [] s t)

/-- ADD HL,r16 and ADD HL,SP: the sum mod 65536; Z kept, N = 0, the carries out of bits 11 and 15
(R258, R259). -/
def Obligations.AddToHl : Prop :=
  ∀ (p : Reg16) (s : State),
    (Row (.addHlR16 p) [16 * p.code.toNat + 9] (.always 2) ∧
      ∃ t, exec (.addHlR16 p) s = .next t ∧
        (let a := s.hl.toNat
         let b := (s.reg16 p).toNat
         t.hl.toNat = (a + b) % 65536 ∧
         FlagsAre s.flagZ false (4095 < a % 4096 + b % 4096) (65535 < a + b) t) ∧
        RegsKept [.h, .l] s t ∧ Frame 1 [] [] s t) ∧
    (Row .addHlSp [0x39] (.always 2) ∧
      ∃ t, exec .addHlSp s = .next t ∧
        (let a := s.hl.toNat
         let b := s.sp.toNat
         t.hl.toNat = (a + b) % 65536 ∧
         FlagsAre s.flagZ false (4095 < a % 4096 + b % 4096) (65535 < a + b) t) ∧
        RegsKept [.h, .l] s t ∧ Frame 1 [] [] s t)

/-! ## Jumps, calls, returns -/

/-- JP n16, JP HL and JR: PC becomes the target; JR's is the next instruction's address plus the signed
byte, mod 65536 (R266, R268, R270). -/
def Obligations.Jumps : Prop :=
  ∀ (w : Word) (e : Byte) (s : State),
    (Row (.jp w) [0xC3, w.toNat % 256, w.toNat / 256] (.always 4) ∧ JumpsTo (.jp w) 3 true w s) ∧
    (Row .jpHl [0xE9] (.always 1) ∧ JumpsTo .jpHl 1 true s.hl s) ∧
    (Row (.jr e) [0x18, e.toNat] (.always 3) ∧ JumpsTo (.jr e) 2 true (displaced (nextPc 2 s) e) s)

/-- JP cc and JR cc: the jump where the condition holds, the next instruction where it does not (R265,
R267, R269). -/
def Obligations.ConditionalJumps : Prop :=
  ∀ (cc : Cond) (w : Word) (e : Byte) (s : State),
    (Row (.jpCc cc w) [194 + 8 * cc.code.toNat, w.toNat % 256, w.toNat / 256] (.branch 4 3) ∧
      JumpsTo (.jpCc cc w) 3 (condHolds cc s) w s) ∧
    (Row (.jrCc cc e) [32 + 8 * cc.code.toNat, e.toNat] (.branch 3 2) ∧
      JumpsTo (.jrCc cc e) 2 (condHolds cc s) (displaced (nextPc 2 s) e) s)

/-- CALL, CALL cc and RST: the next instruction's address pushed, PC at the target (R271 to R273). -/
def Obligations.Calls : Prop :=
  ∀ (cc : Cond) (w : Word) (t : BitVec 3) (s : State),
    (Row (.call w) [0xCD, w.toNat % 256, w.toNat / 256] (.always 6) ∧ CallsTo (.call w) 3 true w s) ∧
    (Row (.callCc cc w) [196 + 8 * cc.code.toNat, w.toNat % 256, w.toNat / 256] (.branch 6 3) ∧
      CallsTo (.callCc cc w) 3 (condHolds cc s) w s) ∧
    (Row (.rst t) [199 + 8 * t.toNat] (.always 4) ∧
      CallsTo (.rst t) 1 true (BitVec.ofNat 16 (8 * t.toNat)) s)

/-- RET and RET cc: PC becomes the word on top of the stack (R274, R275). -/
def Obligations.Returns : Prop :=
  ∀ (cc : Cond) (s : State),
    (Row .ret [0xC9] (.always 4) ∧ ReturnsIf .ret true s) ∧
    (Row (.retCc cc) [192 + 8 * cc.code.toNat] (.branch 5 2) ∧ ReturnsIf (.retCc cc) (condHolds cc s) s)

/-- RETI: PC becomes the word on top of the stack, IME = 1 and ime_pending = 0; and EI followed by RET,
with the step's delayed enabling, leaves the state RETI leaves (R276, R319). -/
def Obligations.RetiReturnsAndEnables : Prop :=
  ∀ s : State,
    Row .reti [0xD9] (.always 4) ∧
    (∃ t, exec .reti s = .next t ∧
      t.pc.toNat = 256 * s.popHigh.toNat + s.popLow.toNat ∧ t.haltBug = false ∧
      t.sp = s.sp + 2 ∧ t.ime = true ∧ t.imePending = false ∧ t.halted = s.halted ∧
      t.stopped = s.stopped ∧ t.doubleSpeed = s.doubleSpeed ∧ t.platform = s.platform ∧
      t.env = s.env ∧ RegsKept [] s t ∧ FlagsKept s t ∧ Reads s.popReads s t ∧ Stores [] s t) ∧
    (∃ u, exec .ei s = .next u ∧ completeStep u.imePending (exec .ret u) = exec .reti s)

/-! ## Miscellaneous -/

/-- NOP, DI and EI (R292, R294, R300): EI itself sets ime_pending only. -/
def Obligations.NopDiEi : Prop :=
  ∀ s : State,
    (Row .nop [0x00] (.always 1) ∧
      ∃ t, exec .nop s = .next t ∧ RegsKept [] s t ∧ FlagsKept s t ∧ Frame 1 [] [] s t) ∧
    (Row .di [0xF3] (.always 1) ∧
      ∃ t, exec .di s = .next t ∧ t.ime = false ∧ t.imePending = false ∧
        RegsKept [] s t ∧ FlagsKept s t ∧
        Frame 1 [] [] { s with ime := false, imePending := false } t) ∧
    (Row .ei [0xFB] (.always 1) ∧
      ∃ t, exec .ei s = .next t ∧ t.ime = s.ime ∧ t.imePending = true ∧
        RegsKept [] s t ∧ FlagsKept s t ∧ Frame 1 [] [] { s with imePending := true } t)

/-- HALT (R296): it waits unless a request is pending with IME = 0; then the next fetch reads its byte
twice instead; with an EI under way and a request pending it is refused. -/
def Obligations.HaltCases : Prop :=
  ∀ s : State,
    Row .halt [0x76] .unstated ∧
    (s.imePending = true ∧ s.pending ≠ 0 → exec .halt s = .refused .eiHaltPending) ∧
    (s.imePending = false ∧ s.ime = false ∧ s.pending ≠ 0 →
      ∃ t, exec .halt s = .next t ∧ t.haltBug = true ∧ t.pc = nextPc 1 s ∧
        RegsKept [] s t ∧ FlagsKept s t ∧ SpKept s t ∧ ControlKept s t ∧ Reads [] s t ∧
        Stores [] s t) ∧
    ((s.imePending = false ∧ s.ime = true) ∨ s.pending = 0 →
      ∃ t, exec .halt s = .next t ∧ t.halted = true ∧
        RegsKept [] s t ∧ FlagsKept s t ∧ Frame 1 [] [] { s with halted := true } t)

/-- STOP (R298): on a CGB with second byte $00 it switches the speed where KEY1 bit 0 is set, clearing
the bit, and otherwise stops; the two refusals. -/
def Obligations.StopCases : Prop :=
  ∀ (b : Byte) (s : State),
    Row (.stop b) [0x10, b.toNat] .unstated ∧
    (b ≠ 0 → exec (.stop b) s = .refused .stopOperand) ∧
    (b = 0 → s.platform.model = .dmg → exec (.stop b) s = .refused .stopOnDmg) ∧
    (b = 0 → s.platform.model = .cgb → s.key1Arm = true →
      ∃ t, exec (.stop b) s = .next t ∧ t.doubleSpeed = !s.doubleSpeed ∧ t.key1Arm = false ∧
        t.ime = s.ime ∧ t.imePending = s.imePending ∧ t.halted = s.halted ∧ t.stopped = s.stopped ∧
        t.platform = s.platform ∧ t.env = s.env ∧ PcPast 2 s t ∧
        RegsKept [] s t ∧ FlagsKept s t ∧ SpKept s t ∧ Reads [] s t ∧
        t.peek 0xFF4D = some (BitVec.ofNat 8 (128 * (!s.doubleSpeed).toNat + 126)) ∧
        (∀ a, a ≠ 0xFF4D → t.peek a = s.peek a) ∧ t.ie = s.ie ∧ t.ifReg = s.ifReg) ∧
    (b = 0 → s.platform.model = .cgb → s.key1Arm = false →
      ∃ t, exec (.stop b) s = .next t ∧ t.stopped = true ∧
        RegsKept [] s t ∧ FlagsKept s t ∧ Frame 2 [] [] { s with stopped := true } t)

/-- An unassigned byte faults on every path, with its own value and the address it was fetched at; the
eleven rows (R101, R310). -/
def Obligations.UnassignedBytesFault : Prop :=
  ∀ (i : Instr) (b : Byte) (s : State), i.unassigned? = some b →
    encode i = [b] ∧ exec i s = .fault (.illegalOpcode b s.pc)

/-- The identities the source states, with their limits (R107): RLA and ADC A agree in A and C; ADD A
and SLA A in A, Z, N and C; CPL and XOR 255 in A; RST and CALL to its target, from states whose
next address is the same, in everything. -/
def Obligations.SourceEquivalences : Prop :=
  ∀ s : State,
    (∃ t u, exec .rla s = .next t ∧ exec (.adcR8 .a) s = .next u ∧
      t.a = u.a ∧ t.flagC = u.flagC ∧ t.flagC = decide (s.a.toNat / 128 = 1) ∧
      t.a.toNat = (2 * s.a.toNat + s.flagC.toNat) % 256 ∧ t.flagZ = false ∧ t.flagH = false) ∧
    (∃ t u, exec (.addR8 .a) s = .next t ∧ exec (.slaR8 .a) s = .next u ∧
      t.a = u.a ∧ t.flagZ = u.flagZ ∧ t.flagN = u.flagN ∧ t.flagC = u.flagC ∧
      t.flagH = decide (s.a.toNat / 8 % 2 = 1) ∧ u.flagH = false) ∧
    (∃ t u, exec .cpl s = .next t ∧ exec (.xorN8 0xFF) s = .next u ∧
      t.a = u.a ∧ t.flagZ = s.flagZ ∧ t.flagC = s.flagC ∧ u.flagN = false ∧ u.flagC = false) ∧
    (∀ k : BitVec 3, exec (.rst k) s =
      exec (.call (BitVec.ofNat 16 (8 * k.toNat))) { s with pc := nextPc 1 s - 3, haltBug := false })

/-! ## All instructions -/

/-- The table of R29: what every instruction does to each flag, where it goes on. -/
def Obligations.FlagTable : Prop :=
  ∀ (i : Instr) (s t : State), exec i s = .next t →
    (flagRow i).z.allows s.flagZ t.flagZ ∧ (flagRow i).n.allows s.flagN t.flagN ∧
    (flagRow i).h.allows s.flagH t.flagH ∧ (flagRow i).c.allows s.flagC t.flagC

/-- The instructions of R61 and R66, and STOP's KEY1, are the only ones that change a byte, and only at
the addresses listed for them. -/
def Obligations.OnlyListedBytesChange : Prop :=
  ∀ (i : Instr) (s t : State), exec i s = .next t →
    ∀ a, a ∉ storesTo i s → t.peek a = s.peek a

/-- An instruction that does not assign PC moves it past its own bytes; one that does not write SP keeps
it; one that is no control instruction keeps IME, ime_pending, the waits, double_speed and the
parameters (R15, R23, R24, R30 to R34). -/
def Obligations.OnlyListedRegistersChange : Prop :=
  ∀ (i : Instr) (s t : State), exec i s = .next t →
    (assignsPc i = false → t.pc = nextPc i.size s) ∧
    (writesSp i = false → t.sp = s.sp) ∧
    (isControl i = false → ControlKept s t ∧ t.haltBug = false) ∧
    t.platform = s.platform ∧ t.env = s.env

/-! ## Reset and the invariant -/

/-- Reset (R350): the registers from the record, with F's low 4 bits 0 and IF's high 3 bits 1, the hidden
bits 0; the two records "after boot ROM"; and "power-on", which fixes PC and IME only. -/
def Obligations.ResetValues : Prop :=
  (∀ (p : Platform) (r : ResetRecord),
    let s := State.ofReset p r
    s.a = r.a ∧ s.f.toNat = r.f.toNat / 16 * 16 ∧ s.b = r.b ∧ s.c = r.c ∧ s.d = r.d ∧ s.e = r.e ∧
    s.h = r.h ∧ s.l = r.l ∧ s.sp = r.sp ∧ s.pc = r.pc ∧ s.ime = r.ime ∧ s.ie = r.ie ∧
    s.ifReg.toNat = 224 + r.ifReg.toNat % 32 ∧ s.key1Arm = r.key1Arm ∧
    s.imePending = false ∧ s.halted = false ∧ s.haltBug = false ∧ s.stopped = false ∧
    s.doubleSpeed = false) ∧
  (∀ m : Model,
    let r := ResetRecord.afterBoot m
    r.pc = 0x0100 ∧ r.sp = 0xFFFE ∧ r.ime = false ∧ r.ie = 0x00 ∧ r.ifReg = 0xE1 ∧
    r.key1Arm = false) ∧
  (let r := ResetRecord.afterBoot .dmg
   r.a = 0x01 ∧ r.f = 0xB0 ∧ r.b = 0x00 ∧ r.c = 0x13 ∧ r.d = 0x00 ∧ r.e = 0xD8 ∧ r.h = 0x01 ∧
   r.l = 0x4D) ∧
  (let r := ResetRecord.afterBoot .cgb
   r.a = 0x11 ∧ r.f = 0x80 ∧ r.b = 0x00 ∧ r.c = 0x00 ∧ r.d = 0xFF ∧ r.e = 0x56 ∧ r.h = 0x00 ∧
   r.l = 0x0D) ∧
  (∀ r : ResetRecord,
    r.powerOn.pc = 0x0000 ∧ r.powerOn.ime = false ∧
    r.powerOn = { r with pc := 0x0000, ime := false })

/-- Every start state satisfies the invariant, whatever the parameters and the record; State.reset is one
of them. That State.reset takes a CGB after its boot ROM is the model's choice (log 1, 2, 8). -/
def Obligations.ResetInvariant : Prop :=
  (∀ (p : Platform) (r : ResetRecord), (State.ofReset p r).Inv) ∧
  State.reset = State.ofReset State.reset.platform (ResetRecord.afterBoot .cgb) ∧
  State.reset.platform.model = .cgb

/-- Every step keeps the invariant: F's low 4 bits stay 0 and IF's high 3 bits 1, memory stays canonical
and lists plain addresses only, a double read stays alone, the CPU is never halted and stopped at once,
a DMG never runs at double speed. The canonical form of memory is the model's choice (log 3). -/
def Obligations.StepKeepsInvariant : Prop :=
  ∀ s t : State, s.Inv → step s = .next t → t.Inv

/-! ## The step -/

/-- The environment's move (R313, R328): it sets bits among 4..0 of IF and clears none, and changes
nothing else; every step uses up one move and changes no parameter. -/
def Obligations.EnvironmentMoves : Prop :=
  ∀ s : State,
    (∀ k, s.afterEnv.ifReg.getLsbD k =
      (s.ifReg.getLsbD k || (decide (k < 5) && s.envMove.irq.getLsbD k))) ∧
    s.afterEnv = { s with ifReg := s.afterEnv.ifReg, env := s.env.tail } ∧
    (∀ t, step s = .next t → t.env = s.env.tail ∧ t.platform = s.platform)

/-- What the step executes (R316 (0) to (4)): exactly when the CPU is not kept stopped, not kept halted,
and takes no interrupt, it executes an instruction, from the state where the waits are over. -/
def Obligations.WhenAnInstructionRuns : Prop :=
  ∀ s u : State, s.prepare = .execute u ↔ s.runs ∧ u = s.awake

/-- When the bytes that Fetch8() reads at PC are those of `i`, the step is exec of `i` at that state,
with the answers of the environment the fetch used up, and then, where an EI was under way before it and
still is, IME becomes 1; and the fetches move PC as the instruction's own advance does (R14, R316). -/
def Obligations.StepRunsDecodedInstruction : Prop :=
  ∀ (s : State) (i : Instr), s.runs →
    (State.fetchMany (encode i).length s.awake).1 = encode i →
    let after := (State.fetchMany (encode i).length s.awake).2
    let u := { s.awake with draws := after.draws }
    after = u.advance (encode i).length ∧
    (∀ t, exec i u = .next t →
      step s = .next (if s.imePending = true ∧ t.imePending = true
        then { t with ime := true, imePending := false } else t)) ∧
    (∀ f, exec i u = .fault f → step s = .fault f) ∧
    (∀ r, exec i u = .refused r → step s = .refused r)

/-- After a HALT that did not wait, the byte at PC is read twice: as the opcode and again as the next
byte, or, for a one-byte instruction, again as the next opcode (R14, R296). -/
def Obligations.HaltDoubleRead : Prop :=
  ∀ (s : State) (b0 b1 : Byte), s.runs → s.haltBug = true →
    s.awake.peek s.pc = some b0 → s.awake.peek (s.pc + 1) = some b1 →
    let i := if instrLength b0 = 1 then decodeBytes b0 0 0
      else if instrLength b0 = 2 then decodeBytes b0 b0 0 else decodeBytes b0 b0 b1
    step s = completeStep s.imePending (exec i s.awake) ∧
    (∀ t, assignsPc i = false → i ≠ .halt → step s = .next t →
      t.pc = s.pc + BitVec.ofNat 16 (i.size - 1) ∧ t.haltBug = false)

/-- Interrupt entry (R314, R317, R318): with IME = 1 and a request pending, the lowest-numbered one is
taken before any instruction: IME = ime_pending = 0, its IF bit cleared, PC pushed, PC at
`$0040 + 8 * i`; nothing else changes and no byte at PC is read. -/
def Obligations.InterruptEntry : Prop :=
  ∀ (s : State) (i : IrqSource),
    (s.stopped = true → s.envMove.button = true) → s.ime = true →
    s.afterEnv.pending.getLsbD i.bit = true →
    (∀ k < i.bit, s.afterEnv.pending.getLsbD k = false) →
    ∃ t, step s = .next t ∧
      t.pc = BitVec.ofNat 16 (0x0040 + 8 * i.bit) ∧ t.sp = s.sp - 2 ∧
      t.ime = false ∧ t.imePending = false ∧ t.halted = false ∧ t.stopped = false ∧
      t.haltBug = s.haltBug ∧ t.doubleSpeed = s.doubleSpeed ∧ t.platform = s.platform ∧
      t.env = s.env.tail ∧ t.draws = s.draws ∧ RegsKept [] s t ∧ FlagsKept s t ∧
      (∃ r : Byte, (∀ k < 8, r.getLsbD k = (s.afterEnv.ifReg.getLsbD k && decide (k ≠ i.bit))) ∧
        Stores (pushed s s.pc) { s.afterEnv with ifReg := r } t)

/-- A request is pending when IE and IF both have its bit, bits 4..0 only; the five sources have the five
bits and the five handler addresses (R314, R315). -/
def Obligations.PendingRequests : Prop :=
  (∀ (s : State) (k : Nat), s.pending.getLsbD k =
    (decide (k < 5) && s.ie.getLsbD k && s.ifReg.getLsbD k)) ∧
  (IrqSource.vblank.bit = 0 ∧ IrqSource.lcd.bit = 1 ∧ IrqSource.timer.bit = 2 ∧
    IrqSource.serial.bit = 3 ∧ IrqSource.joypad.bit = 4) ∧
  (IrqSource.vblank.vector = 0x0040 ∧ IrqSource.lcd.vector = 0x0048 ∧
    IrqSource.timer.vector = 0x0050 ∧ IrqSource.serial.vector = 0x0058 ∧
    IrqSource.joypad.vector = 0x0060) ∧
  (∀ p : BitVec 5, p ≠ 0 → ∃ i, lowestPending p = some i ∧ p.getLsbD i.bit = true ∧
    ∀ k < i.bit, p.getLsbD k = false)

/-- The waits (R316, R327): a stopped CPU without a button press and a halted one without a pending
request only let the environment move; IME is no condition. That a step of waiting uses up one move of
the schedule is the model's choice (log 7). -/
def Obligations.WaitsGoOn : Prop :=
  ∀ s : State,
    (s.stopped = true → s.envMove.button = false → step s = .next s.afterEnv) ∧
    ((s.stopped = true → s.envMove.button = true) → s.halted = true → s.afterEnv.pending = 0 →
      step s = .next { s.afterEnv with stopped := false })

/-- EI takes effect after the following instruction (R294, R316, R360): that instruction runs whatever is
pending, and after it IME = 1 and no EI is under way, unless it was DI, which leaves IME = 0. -/
def Obligations.EiDelay : Prop :=
  ∀ s : State, s.ime = false → s.imePending = true → s.halted = false → s.stopped = false →
    s.runs ∧
    (∀ t, step s = .next t →
      t.imePending = false ∧ t.ime = decide (s.awake.fetch.1 ≠ .di))

/-- IME rises from 0 to 1 in no other way than by RETI or by an EI that ran before, whose following
instruction was not DI (R30). -/
def Obligations.ImeRisesOnlyByRetiOrEi : Prop :=
  ∀ s t : State, step s = .next t → s.ime = false → t.ime = true →
    s.runs ∧ (s.awake.fetch.1 = .reti ∨ (s.imePending = true ∧ s.awake.fetch.1 ≠ .di))

/-- The only steps that stop: an unassigned byte fetched as byte 0 faults with that byte and its address,
and the three refusals come exactly in their three situations (R310, R311, R312). -/
def Obligations.OnlyListedStops : Prop :=
  ∀ s : State,
    (∀ b a, step s = .fault (.illegalOpcode b a) ↔
      s.runs ∧ a = s.pc ∧ s.awake.readByte s.pc = b ∧
      b ∈ [0xD3, 0xDB, 0xDD, 0xE3, 0xE4, 0xEB, 0xEC, 0xED, 0xF4, 0xFC, 0xFD]) ∧
    (step s = .refused .eiHaltPending ↔
      s.runs ∧ s.awake.fetch.1 = .halt ∧ s.imePending = true ∧ s.awake.pending ≠ 0) ∧
    (step s = .refused .stopOperand ↔ s.runs ∧ ∃ b, s.awake.fetch.1 = .stop b ∧ b ≠ 0) ∧
    (step s = .refused .stopOnDmg ↔
      s.runs ∧ s.awake.fetch.1 = .stop 0 ∧ s.platform.model = .dmg) ∧
    (∀ r, step s = .refused r → r = .eiHaltPending ∨ r = .stopOperand ∨ r = .stopOnDmg)
end

