-- ==== Sys2Proof/Laws/Memory.lean ====
section
/-! SUPPORT. Plain memory: a byte written is the byte read, other bytes keep their values, and every
write keeps the canonical form. -/

namespace Sys2Proof.Machine

/-! ## Reading back -/

theorem Memory.read_erase (m : Memory) (a b : Nat) :
    (m.erase a).read b = if a = b then Memory.unlisted else m.read b := by
  induction m with
  | nil => simp [Memory.erase, Memory.read]
  | cons x rest ih =>
    obtain ⟨k, u⟩ := x
    by_cases hk : k = a <;> by_cases hb : a = b <;> by_cases hkb : k = b <;>
      simp_all [Memory.erase, Memory.read]

theorem Memory.not_mem_erase {m : Memory} {a : Nat} : ∀ x ∈ m.erase a, x.1 ≠ a := by
  induction m with
  | nil => simp [Memory.erase]
  | cons y rest ih =>
    obtain ⟨k, u⟩ := y
    simp only [Memory.erase]
    split
    · exact ih
    · next hk =>
      intro x hx
      rcases List.mem_cons.1 hx with rfl | hx
      · exact hk
      · exact ih x hx

theorem Memory.read_insert {m : Memory} {a : Nat} (v : Byte) (b : Nat) (h : ∀ x ∈ m, x.1 ≠ a) :
    (m.insert a v).read b = if a = b then v else m.read b := by
  induction m with
  | nil => simp [Memory.insert, Memory.read]
  | cons x rest ih =>
    obtain ⟨k, u⟩ := x
    have hk : k ≠ a := h (k, u) (by simp)
    have hi := ih fun y hy => h y (by simp [hy])
    simp only [Memory.insert]
    split
    · rfl
    · simp only [Memory.read]
      rw [hi]
      split
      · next hkb => rw [if_neg (by omega)]
      · rfl

/-- A write is read back and no other byte changes. -/
theorem Memory.read_write (m : Memory) (a b : Nat) (v : Byte) :
    (m.write a v).read b = if a = b then v else m.read b := by
  unfold Memory.write
  split
  · next hv => rw [Memory.read_erase, hv]
  · rw [Memory.read_insert v b Memory.not_mem_erase, Memory.read_erase]
    split <;> simp_all

/-! ## The canonical form -/

theorem Memory.mem_erase {m : Memory} {a : Nat} {x : Host.Cell} (h : x ∈ m.erase a) : x ∈ m := by
  induction m with
  | nil => exact h
  | cons y rest ih =>
    obtain ⟨k, u⟩ := y
    simp only [Memory.erase] at h
    split at h
    · exact List.mem_cons_of_mem _ (ih h)
    · rcases List.mem_cons.1 h with h | h
      · simp [h]
      · exact List.mem_cons_of_mem _ (ih h)

theorem Memory.mem_insert {m : Memory} {a : Nat} {v : Byte} {x : Host.Cell} (h : x ∈ m.insert a v) :
    x = (a, v) ∨ x ∈ m := by
  induction m with
  | nil => simpa [Memory.insert] using h
  | cons y rest ih =>
    obtain ⟨k, u⟩ := y
    simp only [Memory.insert] at h
    split at h
    · simpa using h
    · rcases List.mem_cons.1 h with h | h
      · simp [h]
      · rcases ih h with h | h <;> simp [h]

/-- A cell of memory after a write is the cell written or one that was there. -/
theorem Memory.mem_write {m : Memory} {a : Nat} {v : Byte} {x : Host.Cell} (h : x ∈ m.write a v) :
    (x = (a, v) ∧ v ≠ Memory.unlisted) ∨ x ∈ m := by
  unfold Memory.write at h
  split at h
  · exact Or.inr (Memory.mem_erase h)
  · next hv =>
    rcases Memory.mem_insert h with h | h
    · exact Or.inl ⟨h, hv⟩
    · exact Or.inr (Memory.mem_erase h)

theorem Memory.pairwise_erase {m : Memory} (hm : m.Pairwise (fun x y => x.1 < y.1)) (a : Nat) :
    (m.erase a).Pairwise (fun x y => x.1 < y.1) := by
  induction m with
  | nil => exact hm
  | cons y rest ih =>
    obtain ⟨k, u⟩ := y
    have hc := List.pairwise_cons.1 hm
    simp only [Memory.erase]
    split
    · exact ih hc.2
    · exact List.pairwise_cons.2 ⟨fun z hz => hc.1 z (Memory.mem_erase hz), ih hc.2⟩

theorem Memory.pairwise_insert {m : Memory} {a : Nat} {v : Byte}
    (hm : m.Pairwise (fun x y => x.1 < y.1)) (h : ∀ x ∈ m, x.1 ≠ a) :
    (m.insert a v).Pairwise (fun x y => x.1 < y.1) := by
  induction m with
  | nil => simp [Memory.insert]
  | cons y rest ih =>
    obtain ⟨k, u⟩ := y
    have hc := List.pairwise_cons.1 hm
    have hk : k ≠ a := h (k, u) (by simp)
    simp only [Memory.insert]
    split
    · next hlt =>
      refine List.pairwise_cons.2 ⟨?_, hm⟩
      intro z hz
      rcases List.mem_cons.1 hz with rfl | hz
      · exact hlt
      · exact Nat.lt_trans hlt (hc.1 z hz)
    · next hlt =>
      refine List.pairwise_cons.2 ⟨?_, ih hc.2 fun z hz => h z (by simp [hz])⟩
      intro z hz
      rcases Memory.mem_insert hz with hz | hz
      · rw [hz]
        show k < a
        omega
      · exact hc.1 z hz

/-- Every write below 65536 keeps the canonical form. -/
theorem Memory.wf_write {m : Memory} (hm : m.wf) {a : Nat} (ha : a < 65536) (v : Byte) :
    (m.write a v).wf := by
  refine ⟨?_, ?_⟩
  · unfold Memory.write
    split
    · exact Memory.pairwise_erase hm.1 a
    · exact Memory.pairwise_insert (Memory.pairwise_erase hm.1 a) Memory.not_mem_erase
  · intro x hx
    rcases Memory.mem_write hx with h | h
    · rw [h.1]
      exact ⟨ha, h.2⟩
    · exact hm.2 x h

/-- Memory at reset, with nothing listed, is canonical. -/
theorem Memory.wf_nil : Memory.wf [] := by decide

end Sys2Proof.Machine
end

