-- ==== Sys2Proof/Laws/State.lean ====
section
/-! SUPPORT. What each update of a register leaves in each field: one lemma per field per update. -/

namespace Sys2Proof.Machine

/-! ## `x[i] <- v` -/

@[simp] theorem setReg8_f (s : State) (r : Reg8) (v : Byte) : (s.setReg8 r v).f = s.f := by cases r <;> rfl
@[simp] theorem setReg8_sp (s : State) (r : Reg8) (v : Byte) : (s.setReg8 r v).sp = s.sp := by cases r <;> rfl
@[simp] theorem setReg8_pc (s : State) (r : Reg8) (v : Byte) : (s.setReg8 r v).pc = s.pc := by cases r <;> rfl
@[simp] theorem setReg8_ime (s : State) (r : Reg8) (v : Byte) : (s.setReg8 r v).ime = s.ime := by cases r <;> rfl
@[simp] theorem setReg8_imePending (s : State) (r : Reg8) (v : Byte) : (s.setReg8 r v).imePending = s.imePending := by cases r <;> rfl
@[simp] theorem setReg8_halted (s : State) (r : Reg8) (v : Byte) : (s.setReg8 r v).halted = s.halted := by cases r <;> rfl
@[simp] theorem setReg8_haltBug (s : State) (r : Reg8) (v : Byte) : (s.setReg8 r v).haltBug = s.haltBug := by cases r <;> rfl
@[simp] theorem setReg8_stopped (s : State) (r : Reg8) (v : Byte) : (s.setReg8 r v).stopped = s.stopped := by cases r <;> rfl
@[simp] theorem setReg8_ie (s : State) (r : Reg8) (v : Byte) : (s.setReg8 r v).ie = s.ie := by cases r <;> rfl
@[simp] theorem setReg8_ifReg (s : State) (r : Reg8) (v : Byte) : (s.setReg8 r v).ifReg = s.ifReg := by cases r <;> rfl
@[simp] theorem setReg8_key1Arm (s : State) (r : Reg8) (v : Byte) : (s.setReg8 r v).key1Arm = s.key1Arm := by cases r <;> rfl
@[simp] theorem setReg8_doubleSpeed (s : State) (r : Reg8) (v : Byte) : (s.setReg8 r v).doubleSpeed = s.doubleSpeed := by cases r <;> rfl
@[simp] theorem setReg8_mem (s : State) (r : Reg8) (v : Byte) : (s.setReg8 r v).mem = s.mem := by cases r <;> rfl
@[simp] theorem setReg8_platform (s : State) (r : Reg8) (v : Byte) : (s.setReg8 r v).platform = s.platform := by cases r <;> rfl
@[simp] theorem setReg8_env (s : State) (r : Reg8) (v : Byte) : (s.setReg8 r v).env = s.env := by cases r <;> rfl
@[simp] theorem setReg8_draws (s : State) (r : Reg8) (v : Byte) : (s.setReg8 r v).draws = s.draws := by cases r <;> rfl

@[simp] theorem setReg8_reg8_same (s : State) (r : Reg8) (v : Byte) : (s.setReg8 r v).reg8 r = v := by
  cases r <;> rfl

theorem setReg8_reg8_other (s : State) {r q : Reg8} (v : Byte) (h : q ≠ r) :
    (s.setReg8 r v).reg8 q = s.reg8 q := by
  cases r <;> cases q <;> first | rfl | exact absurd rfl h

@[simp] theorem setReg8_a_same (s : State) (v : Byte) : (s.setReg8 .a v).a = v := rfl

/-! ## `rp[p] <- w` -/

@[simp] theorem setReg16_a (s : State) (p : Reg16) (w : Word) : (s.setReg16 p w).a = s.a := by cases p <;> rfl
@[simp] theorem setReg16_f (s : State) (p : Reg16) (w : Word) : (s.setReg16 p w).f = s.f := by cases p <;> rfl
@[simp] theorem setReg16_sp (s : State) (p : Reg16) (w : Word) : (s.setReg16 p w).sp = s.sp := by cases p <;> rfl
@[simp] theorem setReg16_pc (s : State) (p : Reg16) (w : Word) : (s.setReg16 p w).pc = s.pc := by cases p <;> rfl
@[simp] theorem setReg16_ime (s : State) (p : Reg16) (w : Word) : (s.setReg16 p w).ime = s.ime := by cases p <;> rfl
@[simp] theorem setReg16_imePending (s : State) (p : Reg16) (w : Word) : (s.setReg16 p w).imePending = s.imePending := by cases p <;> rfl
@[simp] theorem setReg16_halted (s : State) (p : Reg16) (w : Word) : (s.setReg16 p w).halted = s.halted := by cases p <;> rfl
@[simp] theorem setReg16_haltBug (s : State) (p : Reg16) (w : Word) : (s.setReg16 p w).haltBug = s.haltBug := by cases p <;> rfl
@[simp] theorem setReg16_stopped (s : State) (p : Reg16) (w : Word) : (s.setReg16 p w).stopped = s.stopped := by cases p <;> rfl
@[simp] theorem setReg16_ie (s : State) (p : Reg16) (w : Word) : (s.setReg16 p w).ie = s.ie := by cases p <;> rfl
@[simp] theorem setReg16_ifReg (s : State) (p : Reg16) (w : Word) : (s.setReg16 p w).ifReg = s.ifReg := by cases p <;> rfl
@[simp] theorem setReg16_key1Arm (s : State) (p : Reg16) (w : Word) : (s.setReg16 p w).key1Arm = s.key1Arm := by cases p <;> rfl
@[simp] theorem setReg16_doubleSpeed (s : State) (p : Reg16) (w : Word) : (s.setReg16 p w).doubleSpeed = s.doubleSpeed := by cases p <;> rfl
@[simp] theorem setReg16_mem (s : State) (p : Reg16) (w : Word) : (s.setReg16 p w).mem = s.mem := by cases p <;> rfl
@[simp] theorem setReg16_platform (s : State) (p : Reg16) (w : Word) : (s.setReg16 p w).platform = s.platform := by cases p <;> rfl
@[simp] theorem setReg16_env (s : State) (p : Reg16) (w : Word) : (s.setReg16 p w).env = s.env := by cases p <;> rfl
@[simp] theorem setReg16_draws (s : State) (p : Reg16) (w : Word) : (s.setReg16 p w).draws = s.draws := by cases p <;> rfl

/-! ## SP, PC -/

@[simp] theorem setSp_a (s : State) (w : Word) : (s.setSp w).a = s.a := rfl
@[simp] theorem setSp_f (s : State) (w : Word) : (s.setSp w).f = s.f := rfl
@[simp] theorem setSp_b (s : State) (w : Word) : (s.setSp w).b = s.b := rfl
@[simp] theorem setSp_c (s : State) (w : Word) : (s.setSp w).c = s.c := rfl
@[simp] theorem setSp_d (s : State) (w : Word) : (s.setSp w).d = s.d := rfl
@[simp] theorem setSp_e (s : State) (w : Word) : (s.setSp w).e = s.e := rfl
@[simp] theorem setSp_h (s : State) (w : Word) : (s.setSp w).h = s.h := rfl
@[simp] theorem setSp_l (s : State) (w : Word) : (s.setSp w).l = s.l := rfl
@[simp] theorem setSp_pc (s : State) (w : Word) : (s.setSp w).pc = s.pc := rfl
@[simp] theorem setSp_ime (s : State) (w : Word) : (s.setSp w).ime = s.ime := rfl
@[simp] theorem setSp_imePending (s : State) (w : Word) : (s.setSp w).imePending = s.imePending := rfl
@[simp] theorem setSp_halted (s : State) (w : Word) : (s.setSp w).halted = s.halted := rfl
@[simp] theorem setSp_haltBug (s : State) (w : Word) : (s.setSp w).haltBug = s.haltBug := rfl
@[simp] theorem setSp_stopped (s : State) (w : Word) : (s.setSp w).stopped = s.stopped := rfl
@[simp] theorem setSp_ie (s : State) (w : Word) : (s.setSp w).ie = s.ie := rfl
@[simp] theorem setSp_ifReg (s : State) (w : Word) : (s.setSp w).ifReg = s.ifReg := rfl
@[simp] theorem setSp_key1Arm (s : State) (w : Word) : (s.setSp w).key1Arm = s.key1Arm := rfl
@[simp] theorem setSp_doubleSpeed (s : State) (w : Word) : (s.setSp w).doubleSpeed = s.doubleSpeed := rfl
@[simp] theorem setSp_mem (s : State) (w : Word) : (s.setSp w).mem = s.mem := rfl
@[simp] theorem setSp_platform (s : State) (w : Word) : (s.setSp w).platform = s.platform := rfl
@[simp] theorem setSp_env (s : State) (w : Word) : (s.setSp w).env = s.env := rfl
@[simp] theorem setSp_draws (s : State) (w : Word) : (s.setSp w).draws = s.draws := rfl
@[simp] theorem setSp_sp (s : State) (w : Word) : (s.setSp w).sp = w := rfl

@[simp] theorem setPc_a (s : State) (w : Addr) : (s.setPc w).a = s.a := rfl
@[simp] theorem setPc_f (s : State) (w : Addr) : (s.setPc w).f = s.f := rfl
@[simp] theorem setPc_b (s : State) (w : Addr) : (s.setPc w).b = s.b := rfl
@[simp] theorem setPc_c (s : State) (w : Addr) : (s.setPc w).c = s.c := rfl
@[simp] theorem setPc_d (s : State) (w : Addr) : (s.setPc w).d = s.d := rfl
@[simp] theorem setPc_e (s : State) (w : Addr) : (s.setPc w).e = s.e := rfl
@[simp] theorem setPc_h (s : State) (w : Addr) : (s.setPc w).h = s.h := rfl
@[simp] theorem setPc_l (s : State) (w : Addr) : (s.setPc w).l = s.l := rfl
@[simp] theorem setPc_sp (s : State) (w : Addr) : (s.setPc w).sp = s.sp := rfl
@[simp] theorem setPc_ime (s : State) (w : Addr) : (s.setPc w).ime = s.ime := rfl
@[simp] theorem setPc_imePending (s : State) (w : Addr) : (s.setPc w).imePending = s.imePending := rfl
@[simp] theorem setPc_halted (s : State) (w : Addr) : (s.setPc w).halted = s.halted := rfl
@[simp] theorem setPc_haltBug (s : State) (w : Addr) : (s.setPc w).haltBug = s.haltBug := rfl
@[simp] theorem setPc_stopped (s : State) (w : Addr) : (s.setPc w).stopped = s.stopped := rfl
@[simp] theorem setPc_ie (s : State) (w : Addr) : (s.setPc w).ie = s.ie := rfl
@[simp] theorem setPc_ifReg (s : State) (w : Addr) : (s.setPc w).ifReg = s.ifReg := rfl
@[simp] theorem setPc_key1Arm (s : State) (w : Addr) : (s.setPc w).key1Arm = s.key1Arm := rfl
@[simp] theorem setPc_doubleSpeed (s : State) (w : Addr) : (s.setPc w).doubleSpeed = s.doubleSpeed := rfl
@[simp] theorem setPc_mem (s : State) (w : Addr) : (s.setPc w).mem = s.mem := rfl
@[simp] theorem setPc_platform (s : State) (w : Addr) : (s.setPc w).platform = s.platform := rfl
@[simp] theorem setPc_env (s : State) (w : Addr) : (s.setPc w).env = s.env := rfl
@[simp] theorem setPc_draws (s : State) (w : Addr) : (s.setPc w).draws = s.draws := rfl
@[simp] theorem setPc_pc (s : State) (w : Addr) : (s.setPc w).pc = w := rfl

/-! ## F and AF -/

@[simp] theorem setFlagsReg_a (s : State) (v : Byte) : (s.setFlagsReg v).a = s.a := rfl
@[simp] theorem setFlagsReg_b (s : State) (v : Byte) : (s.setFlagsReg v).b = s.b := rfl
@[simp] theorem setFlagsReg_c (s : State) (v : Byte) : (s.setFlagsReg v).c = s.c := rfl
@[simp] theorem setFlagsReg_d (s : State) (v : Byte) : (s.setFlagsReg v).d = s.d := rfl
@[simp] theorem setFlagsReg_e (s : State) (v : Byte) : (s.setFlagsReg v).e = s.e := rfl
@[simp] theorem setFlagsReg_h (s : State) (v : Byte) : (s.setFlagsReg v).h = s.h := rfl
@[simp] theorem setFlagsReg_l (s : State) (v : Byte) : (s.setFlagsReg v).l = s.l := rfl
@[simp] theorem setFlagsReg_sp (s : State) (v : Byte) : (s.setFlagsReg v).sp = s.sp := rfl
@[simp] theorem setFlagsReg_pc (s : State) (v : Byte) : (s.setFlagsReg v).pc = s.pc := rfl
@[simp] theorem setFlagsReg_ime (s : State) (v : Byte) : (s.setFlagsReg v).ime = s.ime := rfl
@[simp] theorem setFlagsReg_imePending (s : State) (v : Byte) : (s.setFlagsReg v).imePending = s.imePending := rfl
@[simp] theorem setFlagsReg_halted (s : State) (v : Byte) : (s.setFlagsReg v).halted = s.halted := rfl
@[simp] theorem setFlagsReg_haltBug (s : State) (v : Byte) : (s.setFlagsReg v).haltBug = s.haltBug := rfl
@[simp] theorem setFlagsReg_stopped (s : State) (v : Byte) : (s.setFlagsReg v).stopped = s.stopped := rfl
@[simp] theorem setFlagsReg_ie (s : State) (v : Byte) : (s.setFlagsReg v).ie = s.ie := rfl
@[simp] theorem setFlagsReg_ifReg (s : State) (v : Byte) : (s.setFlagsReg v).ifReg = s.ifReg := rfl
@[simp] theorem setFlagsReg_key1Arm (s : State) (v : Byte) : (s.setFlagsReg v).key1Arm = s.key1Arm := rfl
@[simp] theorem setFlagsReg_doubleSpeed (s : State) (v : Byte) : (s.setFlagsReg v).doubleSpeed = s.doubleSpeed := rfl
@[simp] theorem setFlagsReg_mem (s : State) (v : Byte) : (s.setFlagsReg v).mem = s.mem := rfl
@[simp] theorem setFlagsReg_platform (s : State) (v : Byte) : (s.setFlagsReg v).platform = s.platform := rfl
@[simp] theorem setFlagsReg_env (s : State) (v : Byte) : (s.setFlagsReg v).env = s.env := rfl
@[simp] theorem setFlagsReg_draws (s : State) (v : Byte) : (s.setFlagsReg v).draws = s.draws := rfl
@[simp] theorem setFlagsReg_f (s : State) (v : Byte) : (s.setFlagsReg v).f = v &&& 0xF0 := rfl

@[simp] theorem setFlags_a (s : State) (z n h c : Bool) : (s.setFlags z n h c).a = s.a := rfl
@[simp] theorem setFlags_b (s : State) (z n h c : Bool) : (s.setFlags z n h c).b = s.b := rfl
@[simp] theorem setFlags_c (s : State) (z n h c : Bool) : (s.setFlags z n h c).c = s.c := rfl
@[simp] theorem setFlags_d (s : State) (z n h c : Bool) : (s.setFlags z n h c).d = s.d := rfl
@[simp] theorem setFlags_e (s : State) (z n h c : Bool) : (s.setFlags z n h c).e = s.e := rfl
@[simp] theorem setFlags_h (s : State) (z n h c : Bool) : (s.setFlags z n h c).h = s.h := rfl
@[simp] theorem setFlags_l (s : State) (z n h c : Bool) : (s.setFlags z n h c).l = s.l := rfl
@[simp] theorem setFlags_sp (s : State) (z n h c : Bool) : (s.setFlags z n h c).sp = s.sp := rfl
@[simp] theorem setFlags_pc (s : State) (z n h c : Bool) : (s.setFlags z n h c).pc = s.pc := rfl
@[simp] theorem setFlags_ime (s : State) (z n h c : Bool) : (s.setFlags z n h c).ime = s.ime := rfl
@[simp] theorem setFlags_imePending (s : State) (z n h c : Bool) : (s.setFlags z n h c).imePending = s.imePending := rfl
@[simp] theorem setFlags_halted (s : State) (z n h c : Bool) : (s.setFlags z n h c).halted = s.halted := rfl
@[simp] theorem setFlags_haltBug (s : State) (z n h c : Bool) : (s.setFlags z n h c).haltBug = s.haltBug := rfl
@[simp] theorem setFlags_stopped (s : State) (z n h c : Bool) : (s.setFlags z n h c).stopped = s.stopped := rfl
@[simp] theorem setFlags_ie (s : State) (z n h c : Bool) : (s.setFlags z n h c).ie = s.ie := rfl
@[simp] theorem setFlags_ifReg (s : State) (z n h c : Bool) : (s.setFlags z n h c).ifReg = s.ifReg := rfl
@[simp] theorem setFlags_key1Arm (s : State) (z n h c : Bool) : (s.setFlags z n h c).key1Arm = s.key1Arm := rfl
@[simp] theorem setFlags_doubleSpeed (s : State) (z n h c : Bool) : (s.setFlags z n h c).doubleSpeed = s.doubleSpeed := rfl
@[simp] theorem setFlags_mem (s : State) (z n h c : Bool) : (s.setFlags z n h c).mem = s.mem := rfl
@[simp] theorem setFlags_platform (s : State) (z n h c : Bool) : (s.setFlags z n h c).platform = s.platform := rfl
@[simp] theorem setFlags_env (s : State) (z n h c : Bool) : (s.setFlags z n h c).env = s.env := rfl
@[simp] theorem setFlags_draws (s : State) (z n h c : Bool) : (s.setFlags z n h c).draws = s.draws := rfl
@[simp] theorem setFlags_f (s : State) (z n h c : Bool) : (s.setFlags z n h c).f = packFlags z n h c := rfl

@[simp] theorem setAf_b (s : State) (w : Word) : (s.setAf w).b = s.b := rfl
@[simp] theorem setAf_c (s : State) (w : Word) : (s.setAf w).c = s.c := rfl
@[simp] theorem setAf_d (s : State) (w : Word) : (s.setAf w).d = s.d := rfl
@[simp] theorem setAf_e (s : State) (w : Word) : (s.setAf w).e = s.e := rfl
@[simp] theorem setAf_h (s : State) (w : Word) : (s.setAf w).h = s.h := rfl
@[simp] theorem setAf_l (s : State) (w : Word) : (s.setAf w).l = s.l := rfl
@[simp] theorem setAf_sp (s : State) (w : Word) : (s.setAf w).sp = s.sp := rfl
@[simp] theorem setAf_pc (s : State) (w : Word) : (s.setAf w).pc = s.pc := rfl
@[simp] theorem setAf_ime (s : State) (w : Word) : (s.setAf w).ime = s.ime := rfl
@[simp] theorem setAf_imePending (s : State) (w : Word) : (s.setAf w).imePending = s.imePending := rfl
@[simp] theorem setAf_halted (s : State) (w : Word) : (s.setAf w).halted = s.halted := rfl
@[simp] theorem setAf_haltBug (s : State) (w : Word) : (s.setAf w).haltBug = s.haltBug := rfl
@[simp] theorem setAf_stopped (s : State) (w : Word) : (s.setAf w).stopped = s.stopped := rfl
@[simp] theorem setAf_ie (s : State) (w : Word) : (s.setAf w).ie = s.ie := rfl
@[simp] theorem setAf_ifReg (s : State) (w : Word) : (s.setAf w).ifReg = s.ifReg := rfl
@[simp] theorem setAf_key1Arm (s : State) (w : Word) : (s.setAf w).key1Arm = s.key1Arm := rfl
@[simp] theorem setAf_doubleSpeed (s : State) (w : Word) : (s.setAf w).doubleSpeed = s.doubleSpeed := rfl
@[simp] theorem setAf_mem (s : State) (w : Word) : (s.setAf w).mem = s.mem := rfl
@[simp] theorem setAf_platform (s : State) (w : Word) : (s.setAf w).platform = s.platform := rfl
@[simp] theorem setAf_env (s : State) (w : Word) : (s.setAf w).env = s.env := rfl
@[simp] theorem setAf_draws (s : State) (w : Word) : (s.setAf w).draws = s.draws := rfl
@[simp] theorem setAf_a (s : State) (w : Word) : (s.setAf w).a = hi8 w := rfl
@[simp] theorem setAf_f (s : State) (w : Word) : (s.setAf w).f = lo8 w &&& 0xF0 := rfl

/-! ## Past the instruction's bytes -/

@[simp] theorem advance_a (s : State) (n : Nat) : (s.advance n).a = s.a := rfl
@[simp] theorem advance_f (s : State) (n : Nat) : (s.advance n).f = s.f := rfl
@[simp] theorem advance_b (s : State) (n : Nat) : (s.advance n).b = s.b := rfl
@[simp] theorem advance_c (s : State) (n : Nat) : (s.advance n).c = s.c := rfl
@[simp] theorem advance_d (s : State) (n : Nat) : (s.advance n).d = s.d := rfl
@[simp] theorem advance_e (s : State) (n : Nat) : (s.advance n).e = s.e := rfl
@[simp] theorem advance_h (s : State) (n : Nat) : (s.advance n).h = s.h := rfl
@[simp] theorem advance_l (s : State) (n : Nat) : (s.advance n).l = s.l := rfl
@[simp] theorem advance_sp (s : State) (n : Nat) : (s.advance n).sp = s.sp := rfl
@[simp] theorem advance_ime (s : State) (n : Nat) : (s.advance n).ime = s.ime := rfl
@[simp] theorem advance_imePending (s : State) (n : Nat) : (s.advance n).imePending = s.imePending := rfl
@[simp] theorem advance_halted (s : State) (n : Nat) : (s.advance n).halted = s.halted := rfl
@[simp] theorem advance_stopped (s : State) (n : Nat) : (s.advance n).stopped = s.stopped := rfl
@[simp] theorem advance_ie (s : State) (n : Nat) : (s.advance n).ie = s.ie := rfl
@[simp] theorem advance_ifReg (s : State) (n : Nat) : (s.advance n).ifReg = s.ifReg := rfl
@[simp] theorem advance_key1Arm (s : State) (n : Nat) : (s.advance n).key1Arm = s.key1Arm := rfl
@[simp] theorem advance_doubleSpeed (s : State) (n : Nat) : (s.advance n).doubleSpeed = s.doubleSpeed := rfl
@[simp] theorem advance_mem (s : State) (n : Nat) : (s.advance n).mem = s.mem := rfl
@[simp] theorem advance_platform (s : State) (n : Nat) : (s.advance n).platform = s.platform := rfl
@[simp] theorem advance_env (s : State) (n : Nat) : (s.advance n).env = s.env := rfl
@[simp] theorem advance_draws (s : State) (n : Nat) : (s.advance n).draws = s.draws := rfl
@[simp] theorem advance_pc (s : State) (n : Nat) : (s.advance n).pc = s.codeAddr n := rfl
@[simp] theorem advance_haltBug (s : State) (n : Nat) : (s.advance n).haltBug = false := rfl

/-! ## IF, KEY1, a request -/

@[simp] theorem writeIf_a (s : State) (v : Byte) : (s.writeIf v).a = s.a := rfl
@[simp] theorem writeIf_f (s : State) (v : Byte) : (s.writeIf v).f = s.f := rfl
@[simp] theorem writeIf_b (s : State) (v : Byte) : (s.writeIf v).b = s.b := rfl
@[simp] theorem writeIf_c (s : State) (v : Byte) : (s.writeIf v).c = s.c := rfl
@[simp] theorem writeIf_d (s : State) (v : Byte) : (s.writeIf v).d = s.d := rfl
@[simp] theorem writeIf_e (s : State) (v : Byte) : (s.writeIf v).e = s.e := rfl
@[simp] theorem writeIf_h (s : State) (v : Byte) : (s.writeIf v).h = s.h := rfl
@[simp] theorem writeIf_l (s : State) (v : Byte) : (s.writeIf v).l = s.l := rfl
@[simp] theorem writeIf_sp (s : State) (v : Byte) : (s.writeIf v).sp = s.sp := rfl
@[simp] theorem writeIf_pc (s : State) (v : Byte) : (s.writeIf v).pc = s.pc := rfl
@[simp] theorem writeIf_ime (s : State) (v : Byte) : (s.writeIf v).ime = s.ime := rfl
@[simp] theorem writeIf_imePending (s : State) (v : Byte) : (s.writeIf v).imePending = s.imePending := rfl
@[simp] theorem writeIf_halted (s : State) (v : Byte) : (s.writeIf v).halted = s.halted := rfl
@[simp] theorem writeIf_haltBug (s : State) (v : Byte) : (s.writeIf v).haltBug = s.haltBug := rfl
@[simp] theorem writeIf_stopped (s : State) (v : Byte) : (s.writeIf v).stopped = s.stopped := rfl
@[simp] theorem writeIf_ie (s : State) (v : Byte) : (s.writeIf v).ie = s.ie := rfl
@[simp] theorem writeIf_key1Arm (s : State) (v : Byte) : (s.writeIf v).key1Arm = s.key1Arm := rfl
@[simp] theorem writeIf_doubleSpeed (s : State) (v : Byte) : (s.writeIf v).doubleSpeed = s.doubleSpeed := rfl
@[simp] theorem writeIf_mem (s : State) (v : Byte) : (s.writeIf v).mem = s.mem := rfl
@[simp] theorem writeIf_platform (s : State) (v : Byte) : (s.writeIf v).platform = s.platform := rfl
@[simp] theorem writeIf_env (s : State) (v : Byte) : (s.writeIf v).env = s.env := rfl
@[simp] theorem writeIf_draws (s : State) (v : Byte) : (s.writeIf v).draws = s.draws := rfl
@[simp] theorem writeIf_ifReg (s : State) (v : Byte) : (s.writeIf v).ifReg = v ||| 0xE0 := rfl

@[simp] theorem writeKey1_a (s : State) (v : Byte) : (s.writeKey1 v).a = s.a := by
  unfold State.writeKey1; split <;> rfl
@[simp] theorem writeKey1_f (s : State) (v : Byte) : (s.writeKey1 v).f = s.f := by
  unfold State.writeKey1; split <;> rfl
@[simp] theorem writeKey1_b (s : State) (v : Byte) : (s.writeKey1 v).b = s.b := by
  unfold State.writeKey1; split <;> rfl
@[simp] theorem writeKey1_c (s : State) (v : Byte) : (s.writeKey1 v).c = s.c := by
  unfold State.writeKey1; split <;> rfl
@[simp] theorem writeKey1_d (s : State) (v : Byte) : (s.writeKey1 v).d = s.d := by
  unfold State.writeKey1; split <;> rfl
@[simp] theorem writeKey1_e (s : State) (v : Byte) : (s.writeKey1 v).e = s.e := by
  unfold State.writeKey1; split <;> rfl
@[simp] theorem writeKey1_h (s : State) (v : Byte) : (s.writeKey1 v).h = s.h := by
  unfold State.writeKey1; split <;> rfl
@[simp] theorem writeKey1_l (s : State) (v : Byte) : (s.writeKey1 v).l = s.l := by
  unfold State.writeKey1; split <;> rfl
@[simp] theorem writeKey1_sp (s : State) (v : Byte) : (s.writeKey1 v).sp = s.sp := by
  unfold State.writeKey1; split <;> rfl
@[simp] theorem writeKey1_pc (s : State) (v : Byte) : (s.writeKey1 v).pc = s.pc := by
  unfold State.writeKey1; split <;> rfl
@[simp] theorem writeKey1_ime (s : State) (v : Byte) : (s.writeKey1 v).ime = s.ime := by
  unfold State.writeKey1; split <;> rfl
@[simp] theorem writeKey1_imePending (s : State) (v : Byte) : (s.writeKey1 v).imePending = s.imePending := by
  unfold State.writeKey1; split <;> rfl
@[simp] theorem writeKey1_halted (s : State) (v : Byte) : (s.writeKey1 v).halted = s.halted := by
  unfold State.writeKey1; split <;> rfl
@[simp] theorem writeKey1_haltBug (s : State) (v : Byte) : (s.writeKey1 v).haltBug = s.haltBug := by
  unfold State.writeKey1; split <;> rfl
@[simp] theorem writeKey1_stopped (s : State) (v : Byte) : (s.writeKey1 v).stopped = s.stopped := by
  unfold State.writeKey1; split <;> rfl
@[simp] theorem writeKey1_ie (s : State) (v : Byte) : (s.writeKey1 v).ie = s.ie := by
  unfold State.writeKey1; split <;> rfl
@[simp] theorem writeKey1_ifReg (s : State) (v : Byte) : (s.writeKey1 v).ifReg = s.ifReg := by
  unfold State.writeKey1; split <;> rfl
@[simp] theorem writeKey1_doubleSpeed (s : State) (v : Byte) : (s.writeKey1 v).doubleSpeed = s.doubleSpeed := by
  unfold State.writeKey1; split <;> rfl
@[simp] theorem writeKey1_mem (s : State) (v : Byte) : (s.writeKey1 v).mem = s.mem := by
  unfold State.writeKey1; split <;> rfl
@[simp] theorem writeKey1_platform (s : State) (v : Byte) : (s.writeKey1 v).platform = s.platform := by
  unfold State.writeKey1; split <;> rfl
@[simp] theorem writeKey1_env (s : State) (v : Byte) : (s.writeKey1 v).env = s.env := by
  unfold State.writeKey1; split <;> rfl
@[simp] theorem writeKey1_draws (s : State) (v : Byte) : (s.writeKey1 v).draws = s.draws := by
  unfold State.writeKey1; split <;> rfl

@[simp] theorem clearRequest_a (s : State) (i : IrqSource) : (s.clearRequest i).a = s.a := rfl
@[simp] theorem clearRequest_f (s : State) (i : IrqSource) : (s.clearRequest i).f = s.f := rfl
@[simp] theorem clearRequest_b (s : State) (i : IrqSource) : (s.clearRequest i).b = s.b := rfl
@[simp] theorem clearRequest_c (s : State) (i : IrqSource) : (s.clearRequest i).c = s.c := rfl
@[simp] theorem clearRequest_d (s : State) (i : IrqSource) : (s.clearRequest i).d = s.d := rfl
@[simp] theorem clearRequest_e (s : State) (i : IrqSource) : (s.clearRequest i).e = s.e := rfl
@[simp] theorem clearRequest_h (s : State) (i : IrqSource) : (s.clearRequest i).h = s.h := rfl
@[simp] theorem clearRequest_l (s : State) (i : IrqSource) : (s.clearRequest i).l = s.l := rfl
@[simp] theorem clearRequest_sp (s : State) (i : IrqSource) : (s.clearRequest i).sp = s.sp := rfl
@[simp] theorem clearRequest_pc (s : State) (i : IrqSource) : (s.clearRequest i).pc = s.pc := rfl
@[simp] theorem clearRequest_ime (s : State) (i : IrqSource) : (s.clearRequest i).ime = s.ime := rfl
@[simp] theorem clearRequest_imePending (s : State) (i : IrqSource) : (s.clearRequest i).imePending = s.imePending := rfl
@[simp] theorem clearRequest_halted (s : State) (i : IrqSource) : (s.clearRequest i).halted = s.halted := rfl
@[simp] theorem clearRequest_haltBug (s : State) (i : IrqSource) : (s.clearRequest i).haltBug = s.haltBug := rfl
@[simp] theorem clearRequest_stopped (s : State) (i : IrqSource) : (s.clearRequest i).stopped = s.stopped := rfl
@[simp] theorem clearRequest_ie (s : State) (i : IrqSource) : (s.clearRequest i).ie = s.ie := rfl
@[simp] theorem clearRequest_key1Arm (s : State) (i : IrqSource) : (s.clearRequest i).key1Arm = s.key1Arm := rfl
@[simp] theorem clearRequest_doubleSpeed (s : State) (i : IrqSource) : (s.clearRequest i).doubleSpeed = s.doubleSpeed := rfl
@[simp] theorem clearRequest_mem (s : State) (i : IrqSource) : (s.clearRequest i).mem = s.mem := rfl
@[simp] theorem clearRequest_platform (s : State) (i : IrqSource) : (s.clearRequest i).platform = s.platform := rfl
@[simp] theorem clearRequest_env (s : State) (i : IrqSource) : (s.clearRequest i).env = s.env := rfl
@[simp] theorem clearRequest_draws (s : State) (i : IrqSource) : (s.clearRequest i).draws = s.draws := rfl

/-! ## Registers read after an update of something else -/

@[simp] theorem setSp_reg8 (s : State) (w : Word) (r : Reg8) : (s.setSp w).reg8 r = s.reg8 r := by
  cases r <;> rfl
@[simp] theorem setSp_reg16 (s : State) (w : Word) (p : Reg16) : (s.setSp w).reg16 p = s.reg16 p := by
  cases p <;> rfl
@[simp] theorem setSp_bc (s : State) (w : Word) : (s.setSp w).bc = s.bc := rfl
@[simp] theorem setSp_de (s : State) (w : Word) : (s.setSp w).de = s.de := rfl
@[simp] theorem setSp_hl (s : State) (w : Word) : (s.setSp w).hl = s.hl := rfl
@[simp] theorem setPc_reg8 (s : State) (w : Addr) (r : Reg8) : (s.setPc w).reg8 r = s.reg8 r := by
  cases r <;> rfl
@[simp] theorem setPc_reg16 (s : State) (w : Addr) (p : Reg16) : (s.setPc w).reg16 p = s.reg16 p := by
  cases p <;> rfl
@[simp] theorem setPc_bc (s : State) (w : Addr) : (s.setPc w).bc = s.bc := rfl
@[simp] theorem setPc_de (s : State) (w : Addr) : (s.setPc w).de = s.de := rfl
@[simp] theorem setPc_hl (s : State) (w : Addr) : (s.setPc w).hl = s.hl := rfl
@[simp] theorem setFlagsReg_reg8 (s : State) (v : Byte) (r : Reg8) : (s.setFlagsReg v).reg8 r = s.reg8 r := by
  cases r <;> rfl
@[simp] theorem setFlagsReg_reg16 (s : State) (v : Byte) (p : Reg16) : (s.setFlagsReg v).reg16 p = s.reg16 p := by
  cases p <;> rfl
@[simp] theorem setFlagsReg_bc (s : State) (v : Byte) : (s.setFlagsReg v).bc = s.bc := rfl
@[simp] theorem setFlagsReg_de (s : State) (v : Byte) : (s.setFlagsReg v).de = s.de := rfl
@[simp] theorem setFlagsReg_hl (s : State) (v : Byte) : (s.setFlagsReg v).hl = s.hl := rfl
@[simp] theorem setFlags_reg8 (s : State) (z n h c : Bool) (r : Reg8) : (s.setFlags z n h c).reg8 r = s.reg8 r := by
  cases r <;> rfl
@[simp] theorem setFlags_reg16 (s : State) (z n h c : Bool) (p : Reg16) : (s.setFlags z n h c).reg16 p = s.reg16 p := by
  cases p <;> rfl
@[simp] theorem setFlags_bc (s : State) (z n h c : Bool) : (s.setFlags z n h c).bc = s.bc := rfl
@[simp] theorem setFlags_de (s : State) (z n h c : Bool) : (s.setFlags z n h c).de = s.de := rfl
@[simp] theorem setFlags_hl (s : State) (z n h c : Bool) : (s.setFlags z n h c).hl = s.hl := rfl
@[simp] theorem advance_reg8 (s : State) (n : Nat) (r : Reg8) : (s.advance n).reg8 r = s.reg8 r := by
  cases r <;> rfl
@[simp] theorem advance_reg16 (s : State) (n : Nat) (p : Reg16) : (s.advance n).reg16 p = s.reg16 p := by
  cases p <;> rfl
@[simp] theorem advance_bc (s : State) (n : Nat) : (s.advance n).bc = s.bc := rfl
@[simp] theorem advance_de (s : State) (n : Nat) : (s.advance n).de = s.de := rfl
@[simp] theorem advance_hl (s : State) (n : Nat) : (s.advance n).hl = s.hl := rfl
@[simp] theorem clearRequest_reg8 (s : State) (i : IrqSource) (r : Reg8) : (s.clearRequest i).reg8 r = s.reg8 r := by
  cases r <;> rfl
@[simp] theorem clearRequest_reg16 (s : State) (i : IrqSource) (p : Reg16) : (s.clearRequest i).reg16 p = s.reg16 p := by
  cases p <;> rfl
@[simp] theorem clearRequest_bc (s : State) (i : IrqSource) : (s.clearRequest i).bc = s.bc := rfl
@[simp] theorem clearRequest_de (s : State) (i : IrqSource) : (s.clearRequest i).de = s.de := rfl
@[simp] theorem clearRequest_hl (s : State) (i : IrqSource) : (s.clearRequest i).hl = s.hl := rfl
@[simp] theorem setSp_flagZ (s : State) (w : Word) : (s.setSp w).flagZ = s.flagZ := rfl
@[simp] theorem setSp_flagN (s : State) (w : Word) : (s.setSp w).flagN = s.flagN := rfl
@[simp] theorem setSp_flagH (s : State) (w : Word) : (s.setSp w).flagH = s.flagH := rfl
@[simp] theorem setSp_flagC (s : State) (w : Word) : (s.setSp w).flagC = s.flagC := rfl
@[simp] theorem setSp_af (s : State) (w : Word) : (s.setSp w).af = s.af := rfl
@[simp] theorem setSp_pending (s : State) (w : Word) : (s.setSp w).pending = s.pending := rfl
@[simp] theorem setSp_flagsReg (s : State) (w : Word) : (s.setSp w).flagsReg = s.flagsReg := rfl
@[simp] theorem setSp_cond (s : State) (w : Word) (cc : Cond) : (s.setSp w).cond cc = s.cond cc := by
  cases cc <;> rfl
@[simp] theorem setPc_flagZ (s : State) (w : Addr) : (s.setPc w).flagZ = s.flagZ := rfl
@[simp] theorem setPc_flagN (s : State) (w : Addr) : (s.setPc w).flagN = s.flagN := rfl
@[simp] theorem setPc_flagH (s : State) (w : Addr) : (s.setPc w).flagH = s.flagH := rfl
@[simp] theorem setPc_flagC (s : State) (w : Addr) : (s.setPc w).flagC = s.flagC := rfl
@[simp] theorem setPc_af (s : State) (w : Addr) : (s.setPc w).af = s.af := rfl
@[simp] theorem setPc_pending (s : State) (w : Addr) : (s.setPc w).pending = s.pending := rfl
@[simp] theorem setPc_flagsReg (s : State) (w : Addr) : (s.setPc w).flagsReg = s.flagsReg := rfl
@[simp] theorem setPc_cond (s : State) (w : Addr) (cc : Cond) : (s.setPc w).cond cc = s.cond cc := by
  cases cc <;> rfl
@[simp] theorem advance_flagZ (s : State) (n : Nat) : (s.advance n).flagZ = s.flagZ := rfl
@[simp] theorem advance_flagN (s : State) (n : Nat) : (s.advance n).flagN = s.flagN := rfl
@[simp] theorem advance_flagH (s : State) (n : Nat) : (s.advance n).flagH = s.flagH := rfl
@[simp] theorem advance_flagC (s : State) (n : Nat) : (s.advance n).flagC = s.flagC := rfl
@[simp] theorem advance_af (s : State) (n : Nat) : (s.advance n).af = s.af := rfl
@[simp] theorem advance_pending (s : State) (n : Nat) : (s.advance n).pending = s.pending := rfl
@[simp] theorem advance_flagsReg (s : State) (n : Nat) : (s.advance n).flagsReg = s.flagsReg := rfl
@[simp] theorem advance_cond (s : State) (n : Nat) (cc : Cond) : (s.advance n).cond cc = s.cond cc := by
  cases cc <;> rfl
@[simp] theorem setReg8_flagZ (s : State) (r : Reg8) (v : Byte) : (s.setReg8 r v).flagZ = s.flagZ := by
  cases r <;> rfl
@[simp] theorem setReg8_flagN (s : State) (r : Reg8) (v : Byte) : (s.setReg8 r v).flagN = s.flagN := by
  cases r <;> rfl
@[simp] theorem setReg8_flagH (s : State) (r : Reg8) (v : Byte) : (s.setReg8 r v).flagH = s.flagH := by
  cases r <;> rfl
@[simp] theorem setReg8_flagC (s : State) (r : Reg8) (v : Byte) : (s.setReg8 r v).flagC = s.flagC := by
  cases r <;> rfl
@[simp] theorem setReg16_flagZ (s : State) (p : Reg16) (w : Word) : (s.setReg16 p w).flagZ = s.flagZ := by
  cases p <;> rfl
@[simp] theorem setReg16_flagN (s : State) (p : Reg16) (w : Word) : (s.setReg16 p w).flagN = s.flagN := by
  cases p <;> rfl
@[simp] theorem setReg16_flagH (s : State) (p : Reg16) (w : Word) : (s.setReg16 p w).flagH = s.flagH := by
  cases p <;> rfl
@[simp] theorem setReg16_flagC (s : State) (p : Reg16) (w : Word) : (s.setReg16 p w).flagC = s.flagC := by
  cases p <;> rfl

end Sys2Proof.Machine
end

