-- ==== Sys2Proof/Laws/Ops.lean ====
section
/-! SUPPORT. What each operation over the bus and the stack can do: one law that says all of it, and
one lemma per field. -/

namespace Sys2Proof.Machine

/-! ## Reading a byte -/

/-- All a read does: it uses up an answer of the environment where the rules do not fix the byte. -/
theorem afterRead_eq (s : State) (a : Addr) :
    s.afterRead a = { s with draws := s.draws + if (s.peek a).isNone then 1 else 0 } := by
  unfold State.afterRead
  split <;> simp_all

/-- A byte the rules fix is what is read, and the state is kept. -/
theorem readByte_of_peek {s : State} {a : Addr} {v : Byte} (h : s.peek a = some v) :
    s.readByte a = v ∧ s.afterRead a = s := by
  simp [State.readByte, State.afterRead, h]

@[simp] theorem afterRead_a (s : State) (a : Addr) : (s.afterRead a).a = s.a := by rw [afterRead_eq]
@[simp] theorem afterRead_f (s : State) (a : Addr) : (s.afterRead a).f = s.f := by rw [afterRead_eq]
@[simp] theorem afterRead_b (s : State) (a : Addr) : (s.afterRead a).b = s.b := by rw [afterRead_eq]
@[simp] theorem afterRead_c (s : State) (a : Addr) : (s.afterRead a).c = s.c := by rw [afterRead_eq]
@[simp] theorem afterRead_d (s : State) (a : Addr) : (s.afterRead a).d = s.d := by rw [afterRead_eq]
@[simp] theorem afterRead_e (s : State) (a : Addr) : (s.afterRead a).e = s.e := by rw [afterRead_eq]
@[simp] theorem afterRead_h (s : State) (a : Addr) : (s.afterRead a).h = s.h := by rw [afterRead_eq]
@[simp] theorem afterRead_l (s : State) (a : Addr) : (s.afterRead a).l = s.l := by rw [afterRead_eq]
@[simp] theorem afterRead_sp (s : State) (a : Addr) : (s.afterRead a).sp = s.sp := by rw [afterRead_eq]
@[simp] theorem afterRead_pc (s : State) (a : Addr) : (s.afterRead a).pc = s.pc := by rw [afterRead_eq]
@[simp] theorem afterRead_ime (s : State) (a : Addr) : (s.afterRead a).ime = s.ime := by rw [afterRead_eq]
@[simp] theorem afterRead_imePending (s : State) (a : Addr) : (s.afterRead a).imePending = s.imePending := by rw [afterRead_eq]
@[simp] theorem afterRead_halted (s : State) (a : Addr) : (s.afterRead a).halted = s.halted := by rw [afterRead_eq]
@[simp] theorem afterRead_haltBug (s : State) (a : Addr) : (s.afterRead a).haltBug = s.haltBug := by rw [afterRead_eq]
@[simp] theorem afterRead_stopped (s : State) (a : Addr) : (s.afterRead a).stopped = s.stopped := by rw [afterRead_eq]
@[simp] theorem afterRead_ie (s : State) (a : Addr) : (s.afterRead a).ie = s.ie := by rw [afterRead_eq]
@[simp] theorem afterRead_ifReg (s : State) (a : Addr) : (s.afterRead a).ifReg = s.ifReg := by rw [afterRead_eq]
@[simp] theorem afterRead_key1Arm (s : State) (a : Addr) : (s.afterRead a).key1Arm = s.key1Arm := by rw [afterRead_eq]
@[simp] theorem afterRead_doubleSpeed (s : State) (a : Addr) : (s.afterRead a).doubleSpeed = s.doubleSpeed := by rw [afterRead_eq]
@[simp] theorem afterRead_mem (s : State) (a : Addr) : (s.afterRead a).mem = s.mem := by rw [afterRead_eq]
@[simp] theorem afterRead_platform (s : State) (a : Addr) : (s.afterRead a).platform = s.platform := by rw [afterRead_eq]
@[simp] theorem afterRead_env (s : State) (a : Addr) : (s.afterRead a).env = s.env := by rw [afterRead_eq]
@[simp] theorem afterRead_draws (s : State) (a : Addr) :
    (s.afterRead a).draws = s.draws + if (s.peek a).isNone then 1 else 0 := by rw [afterRead_eq]
@[simp] theorem afterRead_reg8 (s : State) (a : Addr) (r : Reg8) :
    (s.afterRead a).reg8 r = s.reg8 r := by rw [afterRead_eq]; cases r <;> rfl
@[simp] theorem afterRead_reg16 (s : State) (a : Addr) (p : Reg16) :
    (s.afterRead a).reg16 p = s.reg16 p := by rw [afterRead_eq]; cases p <;> rfl
@[simp] theorem afterRead_hl (s : State) (a : Addr) : (s.afterRead a).hl = s.hl := by
  rw [afterRead_eq]; rfl
@[simp] theorem afterRead_peek (s : State) (a b : Addr) : (s.afterRead a).peek b = s.peek b := by
  rw [afterRead_eq]; rfl
@[simp] theorem afterRead_inRam (s : State) (a b : Addr) : (s.afterRead a).inRam b = s.inRam b := by
  rw [afterRead_eq]; rfl

/-! ## Reads after an update of a register -/

@[simp] theorem setReg8_peek (s : State) (r : Reg8) (v : Byte) (x : Addr) : (s.setReg8 r v).peek x = s.peek x := by cases r <;> rfl
@[simp] theorem setReg8_readByte (s : State) (r : Reg8) (v : Byte) (x : Addr) :
    (s.setReg8 r v).readByte x = s.readByte x := by cases r <;> rfl
@[simp] theorem setReg8_inRam (s : State) (r : Reg8) (v : Byte) (x : Addr) : (s.setReg8 r v).inRam x = s.inRam x := by cases r <;> rfl
@[simp] theorem setReg16_peek (s : State) (p : Reg16) (w : Word) (x : Addr) : (s.setReg16 p w).peek x = s.peek x := by cases p <;> rfl
@[simp] theorem setReg16_readByte (s : State) (p : Reg16) (w : Word) (x : Addr) :
    (s.setReg16 p w).readByte x = s.readByte x := by cases p <;> rfl
@[simp] theorem setReg16_inRam (s : State) (p : Reg16) (w : Word) (x : Addr) : (s.setReg16 p w).inRam x = s.inRam x := by cases p <;> rfl
@[simp] theorem setSp_peek (s : State) (w : Word) (x : Addr) : (s.setSp w).peek x = s.peek x := rfl
@[simp] theorem setSp_readByte (s : State) (w : Word) (x : Addr) :
    (s.setSp w).readByte x = s.readByte x := rfl
@[simp] theorem setSp_inRam (s : State) (w : Word) (x : Addr) : (s.setSp w).inRam x = s.inRam x := rfl
@[simp] theorem setPc_peek (s : State) (w : Addr) (x : Addr) : (s.setPc w).peek x = s.peek x := rfl
@[simp] theorem setPc_readByte (s : State) (w : Addr) (x : Addr) :
    (s.setPc w).readByte x = s.readByte x := rfl
@[simp] theorem setPc_inRam (s : State) (w : Addr) (x : Addr) : (s.setPc w).inRam x = s.inRam x := rfl
@[simp] theorem setFlags_peek (s : State) (z n h c : Bool) (x : Addr) : (s.setFlags z n h c).peek x = s.peek x := rfl
@[simp] theorem setFlags_readByte (s : State) (z n h c : Bool) (x : Addr) :
    (s.setFlags z n h c).readByte x = s.readByte x := rfl
@[simp] theorem setFlags_inRam (s : State) (z n h c : Bool) (x : Addr) : (s.setFlags z n h c).inRam x = s.inRam x := rfl
@[simp] theorem setAf_peek (s : State) (w : Word) (x : Addr) : (s.setAf w).peek x = s.peek x := rfl
@[simp] theorem setAf_readByte (s : State) (w : Word) (x : Addr) :
    (s.setAf w).readByte x = s.readByte x := rfl
@[simp] theorem setAf_inRam (s : State) (w : Word) (x : Addr) : (s.setAf w).inRam x = s.inRam x := rfl
@[simp] theorem advance_peek (s : State) (n : Nat) (x : Addr) : (s.advance n).peek x = s.peek x := rfl
@[simp] theorem advance_readByte (s : State) (n : Nat) (x : Addr) :
    (s.advance n).readByte x = s.readByte x := rfl
@[simp] theorem advance_inRam (s : State) (n : Nat) (x : Addr) : (s.advance n).inRam x = s.inRam x := rfl

/-! ## Writing a byte -/

/-- All a write does: it may change IE, IF, KEY1's bit 0 and memory, and nothing else. -/
theorem writeByte_eq (s : State) (a : Addr) (v : Byte) :
    s.writeByte a v =
      { s with
        ie := if a = ieAddr then v else s.ie
        ifReg := if a = ifAddr then v ||| 0xE0 else s.ifReg
        key1Arm := if a = key1Addr ∧ s.platform.model = .cgb then v.getLsbD 0 else s.key1Arm
        mem := if a ≠ ieAddr ∧ a ≠ ifAddr ∧ a ≠ key1Addr ∧ s.inRam a = true
          then s.mem.write a.toNat v else s.mem } := by
  unfold State.writeByte State.writeIf State.writeKey1
  by_cases h1 : a = ieAddr
  · subst h1; simp [ieAddr, ifAddr, key1Addr]
  by_cases h2 : a = ifAddr
  · subst h2; simp [ieAddr, ifAddr, key1Addr]
  by_cases h3 : a = key1Addr
  · subst h3
    simp only [h1, h2, if_false, if_true]
    split <;> simp_all
  by_cases h4 : s.inRam a = true <;> simp [h1, h2, h3, h4]

@[simp] theorem writeByte_a (s : State) (a : Addr) (v : Byte) : (s.writeByte a v).a = s.a := by rw [writeByte_eq]
@[simp] theorem writeByte_f (s : State) (a : Addr) (v : Byte) : (s.writeByte a v).f = s.f := by rw [writeByte_eq]
@[simp] theorem writeByte_b (s : State) (a : Addr) (v : Byte) : (s.writeByte a v).b = s.b := by rw [writeByte_eq]
@[simp] theorem writeByte_c (s : State) (a : Addr) (v : Byte) : (s.writeByte a v).c = s.c := by rw [writeByte_eq]
@[simp] theorem writeByte_d (s : State) (a : Addr) (v : Byte) : (s.writeByte a v).d = s.d := by rw [writeByte_eq]
@[simp] theorem writeByte_e (s : State) (a : Addr) (v : Byte) : (s.writeByte a v).e = s.e := by rw [writeByte_eq]
@[simp] theorem writeByte_h (s : State) (a : Addr) (v : Byte) : (s.writeByte a v).h = s.h := by rw [writeByte_eq]
@[simp] theorem writeByte_l (s : State) (a : Addr) (v : Byte) : (s.writeByte a v).l = s.l := by rw [writeByte_eq]
@[simp] theorem writeByte_sp (s : State) (a : Addr) (v : Byte) : (s.writeByte a v).sp = s.sp := by rw [writeByte_eq]
@[simp] theorem writeByte_pc (s : State) (a : Addr) (v : Byte) : (s.writeByte a v).pc = s.pc := by rw [writeByte_eq]
@[simp] theorem writeByte_ime (s : State) (a : Addr) (v : Byte) : (s.writeByte a v).ime = s.ime := by rw [writeByte_eq]
@[simp] theorem writeByte_imePending (s : State) (a : Addr) (v : Byte) : (s.writeByte a v).imePending = s.imePending := by rw [writeByte_eq]
@[simp] theorem writeByte_halted (s : State) (a : Addr) (v : Byte) : (s.writeByte a v).halted = s.halted := by rw [writeByte_eq]
@[simp] theorem writeByte_haltBug (s : State) (a : Addr) (v : Byte) : (s.writeByte a v).haltBug = s.haltBug := by rw [writeByte_eq]
@[simp] theorem writeByte_stopped (s : State) (a : Addr) (v : Byte) : (s.writeByte a v).stopped = s.stopped := by rw [writeByte_eq]
@[simp] theorem writeByte_doubleSpeed (s : State) (a : Addr) (v : Byte) : (s.writeByte a v).doubleSpeed = s.doubleSpeed := by rw [writeByte_eq]
@[simp] theorem writeByte_platform (s : State) (a : Addr) (v : Byte) : (s.writeByte a v).platform = s.platform := by rw [writeByte_eq]
@[simp] theorem writeByte_env (s : State) (a : Addr) (v : Byte) : (s.writeByte a v).env = s.env := by rw [writeByte_eq]
@[simp] theorem writeByte_draws (s : State) (a : Addr) (v : Byte) : (s.writeByte a v).draws = s.draws := by rw [writeByte_eq]
@[simp] theorem writeByte_reg8 (s : State) (a : Addr) (v : Byte) (r : Reg8) :
    (s.writeByte a v).reg8 r = s.reg8 r := by rw [writeByte_eq]; cases r <;> rfl
@[simp] theorem writeByte_inRam (s : State) (a : Addr) (v : Byte) (b : Addr) :
    (s.writeByte a v).inRam b = s.inRam b := by rw [writeByte_eq]; rfl
theorem writeByte_ie (s : State) (a : Addr) (v : Byte) :
    (s.writeByte a v).ie = if a = ieAddr then v else s.ie := by rw [writeByte_eq]
theorem writeByte_ifReg (s : State) (a : Addr) (v : Byte) :
    (s.writeByte a v).ifReg = if a = ifAddr then v ||| 0xE0 else s.ifReg := by rw [writeByte_eq]
theorem writeByte_key1Arm (s : State) (a : Addr) (v : Byte) :
    (s.writeByte a v).key1Arm =
      if a = key1Addr ∧ s.platform.model = .cgb then v.getLsbD 0 else s.key1Arm := by
  rw [writeByte_eq]
theorem writeByte_mem (s : State) (a : Addr) (v : Byte) :
    (s.writeByte a v).mem =
      if a ≠ ieAddr ∧ a ≠ ifAddr ∧ a ≠ key1Addr ∧ s.inRam a = true
        then s.mem.write a.toNat v else s.mem := by rw [writeByte_eq]

/-- A read finds the byte written, and every other address keeps what it had. -/
theorem peek_writeByte (s : State) (a b : Addr) (v : Byte) :
    (s.writeByte a v).peek b =
      if b = a then
        if a = ieAddr then some v
        else if a = ifAddr then some (v ||| 0xE0)
        else if a = key1Addr then
          some (match s.platform.model with
            | .cgb => BitVec.ofBool s.doubleSpeed ++ (0b111111 : BitVec 6) ++ BitVec.ofBool (v.getLsbD 0)
            | .dmg => 0xFF)
        else if s.inRam a then some v else none
      else s.peek b := by
  have key : ∀ t : State, t.platform = s.platform → t.doubleSpeed = s.doubleSpeed →
      t.key1Arm = s.key1Arm → t.readKey1 = s.readKey1 := by
    intro t h1 h2 h3
    simp [State.readKey1, h1, h2, h3]
  have hread : (s.mem.write a.toNat v).read b.toNat = if b = a then v else s.mem.read b.toNat := by
    rw [Memory.read_write]
    by_cases hb : b = a
    · simp [hb]
    · have : a.toNat ≠ b.toNat := fun h => hb (BitVec.eq_of_toNat_eq h.symm)
      simp [hb, this]
  by_cases hb : b = a
  · subst hb
    rw [if_pos rfl]
    unfold State.peek
    simp only [writeByte_inRam, writeByte_ie, writeByte_mem, State.readIf, writeByte_ifReg]
    split
    · rfl
    · next h1 =>
      split
      · congr 1
        rw [BitVec.or_assoc, BitVec.or_self]
      · next h2 =>
        split
        · next h3 =>
          congr 1
          unfold State.readKey1
          rw [writeByte_platform, writeByte_doubleSpeed, writeByte_key1Arm]
          cases hm : s.platform.model <;> simp [h3]
        · next h3 =>
          split
          · next h4 => simp [h1, h2, h3, h4, hread]
          · rfl
  · rw [if_neg hb]
    unfold State.peek
    simp only [writeByte_inRam, writeByte_ie, writeByte_mem, State.readIf, writeByte_ifReg]
    have hne : ¬ a = b := fun h => hb h.symm
    split
    · next h1 => subst h1; simp [hne]
    · next h1 =>
      split
      · next h2 => subst h2; simp [hne]
      · next h2 =>
        split
        · next h3 =>
          subst h3
          congr 1
          apply key <;> simp [writeByte_key1Arm, hne]
        · next h3 =>
          split
          · congr 1
            split
            · rw [hread, if_neg hb]
            · rfl
          · rfl

/-! ## The stack -/

/-- A push, its two writes and SP (42_stack.md R180). -/
theorem push16_eq (s : State) (w : Word) :
    s.push16 w = ((s.writeByte (s.sp - 1) (hi8 w)).writeByte (s.sp - 2) (lo8 w)).setSp (s.sp - 2) := by
  have h2 : s.sp - 1 - 1 = s.sp - 2 := by bv_omega
  have comm : ∀ (t : State) (x : Word) (a : Addr) (v : Byte),
      (t.setSp x).writeByte a v = (t.writeByte a v).setSp x := by
    intro t x a v
    rw [writeByte_eq, writeByte_eq]
    rfl
  unfold State.push16
  simp only [comm, setSp_sp, h2]
  rfl

/-- A pop, its two reads and SP (42_stack.md R181). -/
theorem afterPop_eq (s : State) :
    s.afterPop = ((s.afterRead s.sp).afterRead (s.sp + 1)).setSp (s.sp + 2) := rfl

@[simp] theorem push16_a (s : State) (w : Word) : (s.push16 w).a = s.a := by simp [push16_eq]
@[simp] theorem push16_f (s : State) (w : Word) : (s.push16 w).f = s.f := by simp [push16_eq]
@[simp] theorem push16_b (s : State) (w : Word) : (s.push16 w).b = s.b := by simp [push16_eq]
@[simp] theorem push16_c (s : State) (w : Word) : (s.push16 w).c = s.c := by simp [push16_eq]
@[simp] theorem push16_d (s : State) (w : Word) : (s.push16 w).d = s.d := by simp [push16_eq]
@[simp] theorem push16_e (s : State) (w : Word) : (s.push16 w).e = s.e := by simp [push16_eq]
@[simp] theorem push16_h (s : State) (w : Word) : (s.push16 w).h = s.h := by simp [push16_eq]
@[simp] theorem push16_l (s : State) (w : Word) : (s.push16 w).l = s.l := by simp [push16_eq]
@[simp] theorem push16_pc (s : State) (w : Word) : (s.push16 w).pc = s.pc := by simp [push16_eq]
@[simp] theorem push16_ime (s : State) (w : Word) : (s.push16 w).ime = s.ime := by simp [push16_eq]
@[simp] theorem push16_imePending (s : State) (w : Word) : (s.push16 w).imePending = s.imePending := by simp [push16_eq]
@[simp] theorem push16_halted (s : State) (w : Word) : (s.push16 w).halted = s.halted := by simp [push16_eq]
@[simp] theorem push16_haltBug (s : State) (w : Word) : (s.push16 w).haltBug = s.haltBug := by simp [push16_eq]
@[simp] theorem push16_stopped (s : State) (w : Word) : (s.push16 w).stopped = s.stopped := by simp [push16_eq]
@[simp] theorem push16_doubleSpeed (s : State) (w : Word) : (s.push16 w).doubleSpeed = s.doubleSpeed := by simp [push16_eq]
@[simp] theorem push16_platform (s : State) (w : Word) : (s.push16 w).platform = s.platform := by simp [push16_eq]
@[simp] theorem push16_env (s : State) (w : Word) : (s.push16 w).env = s.env := by simp [push16_eq]
@[simp] theorem push16_draws (s : State) (w : Word) : (s.push16 w).draws = s.draws := by simp [push16_eq]
@[simp] theorem push16_sp (s : State) (w : Word) : (s.push16 w).sp = s.sp - 2 := by simp [push16_eq]
@[simp] theorem push16_reg8 (s : State) (w : Word) (r : Reg8) : (s.push16 w).reg8 r = s.reg8 r := by
  simp [push16_eq]
@[simp] theorem afterPop_a (s : State) : (s.afterPop).a = s.a := by simp [afterPop_eq]
@[simp] theorem afterPop_f (s : State) : (s.afterPop).f = s.f := by simp [afterPop_eq]
@[simp] theorem afterPop_b (s : State) : (s.afterPop).b = s.b := by simp [afterPop_eq]
@[simp] theorem afterPop_c (s : State) : (s.afterPop).c = s.c := by simp [afterPop_eq]
@[simp] theorem afterPop_d (s : State) : (s.afterPop).d = s.d := by simp [afterPop_eq]
@[simp] theorem afterPop_e (s : State) : (s.afterPop).e = s.e := by simp [afterPop_eq]
@[simp] theorem afterPop_h (s : State) : (s.afterPop).h = s.h := by simp [afterPop_eq]
@[simp] theorem afterPop_l (s : State) : (s.afterPop).l = s.l := by simp [afterPop_eq]
@[simp] theorem afterPop_pc (s : State) : (s.afterPop).pc = s.pc := by simp [afterPop_eq]
@[simp] theorem afterPop_ime (s : State) : (s.afterPop).ime = s.ime := by simp [afterPop_eq]
@[simp] theorem afterPop_imePending (s : State) : (s.afterPop).imePending = s.imePending := by simp [afterPop_eq]
@[simp] theorem afterPop_halted (s : State) : (s.afterPop).halted = s.halted := by simp [afterPop_eq]
@[simp] theorem afterPop_haltBug (s : State) : (s.afterPop).haltBug = s.haltBug := by simp [afterPop_eq]
@[simp] theorem afterPop_stopped (s : State) : (s.afterPop).stopped = s.stopped := by simp [afterPop_eq]
@[simp] theorem afterPop_ie (s : State) : (s.afterPop).ie = s.ie := by simp [afterPop_eq]
@[simp] theorem afterPop_ifReg (s : State) : (s.afterPop).ifReg = s.ifReg := by simp [afterPop_eq]
@[simp] theorem afterPop_key1Arm (s : State) : (s.afterPop).key1Arm = s.key1Arm := by simp [afterPop_eq]
@[simp] theorem afterPop_doubleSpeed (s : State) : (s.afterPop).doubleSpeed = s.doubleSpeed := by simp [afterPop_eq]
@[simp] theorem afterPop_mem (s : State) : (s.afterPop).mem = s.mem := by simp [afterPop_eq]
@[simp] theorem afterPop_platform (s : State) : (s.afterPop).platform = s.platform := by simp [afterPop_eq]
@[simp] theorem afterPop_env (s : State) : (s.afterPop).env = s.env := by simp [afterPop_eq]
@[simp] theorem afterPop_sp (s : State) : s.afterPop.sp = s.sp + 2 := by simp [afterPop_eq]
@[simp] theorem afterPop_reg8 (s : State) (r : Reg8) : s.afterPop.reg8 r = s.reg8 r := by simp [afterPop_eq]
@[simp] theorem afterPop_peek (s : State) (a : Addr) : s.afterPop.peek a = s.peek a := by simp [afterPop_eq]

/-! ## Interrupt entry and return -/

@[simp] theorem enterInterrupt_a (s : State) (i : IrqSource) : (s.enterInterrupt i).a = s.a := by
  simp only [State.enterInterrupt, setPc_a, push16_a]; rfl
@[simp] theorem enterInterrupt_f (s : State) (i : IrqSource) : (s.enterInterrupt i).f = s.f := by
  simp only [State.enterInterrupt, setPc_f, push16_f]; rfl
@[simp] theorem enterInterrupt_b (s : State) (i : IrqSource) : (s.enterInterrupt i).b = s.b := by
  simp only [State.enterInterrupt, setPc_b, push16_b]; rfl
@[simp] theorem enterInterrupt_c (s : State) (i : IrqSource) : (s.enterInterrupt i).c = s.c := by
  simp only [State.enterInterrupt, setPc_c, push16_c]; rfl
@[simp] theorem enterInterrupt_d (s : State) (i : IrqSource) : (s.enterInterrupt i).d = s.d := by
  simp only [State.enterInterrupt, setPc_d, push16_d]; rfl
@[simp] theorem enterInterrupt_e (s : State) (i : IrqSource) : (s.enterInterrupt i).e = s.e := by
  simp only [State.enterInterrupt, setPc_e, push16_e]; rfl
@[simp] theorem enterInterrupt_h (s : State) (i : IrqSource) : (s.enterInterrupt i).h = s.h := by
  simp only [State.enterInterrupt, setPc_h, push16_h]; rfl
@[simp] theorem enterInterrupt_l (s : State) (i : IrqSource) : (s.enterInterrupt i).l = s.l := by
  simp only [State.enterInterrupt, setPc_l, push16_l]; rfl
@[simp] theorem enterInterrupt_halted (s : State) (i : IrqSource) : (s.enterInterrupt i).halted = s.halted := by
  simp only [State.enterInterrupt, setPc_halted, push16_halted]; rfl
@[simp] theorem enterInterrupt_haltBug (s : State) (i : IrqSource) : (s.enterInterrupt i).haltBug = s.haltBug := by
  simp only [State.enterInterrupt, setPc_haltBug, push16_haltBug]; rfl
@[simp] theorem enterInterrupt_stopped (s : State) (i : IrqSource) : (s.enterInterrupt i).stopped = s.stopped := by
  simp only [State.enterInterrupt, setPc_stopped, push16_stopped]; rfl
@[simp] theorem enterInterrupt_doubleSpeed (s : State) (i : IrqSource) : (s.enterInterrupt i).doubleSpeed = s.doubleSpeed := by
  simp only [State.enterInterrupt, setPc_doubleSpeed, push16_doubleSpeed]; rfl
@[simp] theorem enterInterrupt_platform (s : State) (i : IrqSource) : (s.enterInterrupt i).platform = s.platform := by
  simp only [State.enterInterrupt, setPc_platform, push16_platform]; rfl
@[simp] theorem enterInterrupt_env (s : State) (i : IrqSource) : (s.enterInterrupt i).env = s.env := by
  simp only [State.enterInterrupt, setPc_env, push16_env]; rfl
@[simp] theorem enterInterrupt_draws (s : State) (i : IrqSource) : (s.enterInterrupt i).draws = s.draws := by
  simp only [State.enterInterrupt, setPc_draws, push16_draws]; rfl
@[simp] theorem enterInterrupt_sp (s : State) (i : IrqSource) : (s.enterInterrupt i).sp = s.sp - 2 := by
  simp only [State.enterInterrupt, setPc_sp, push16_sp]; rfl
@[simp] theorem enterInterrupt_pc (s : State) (i : IrqSource) : (s.enterInterrupt i).pc = i.vector := rfl
@[simp] theorem enterInterrupt_ime (s : State) (i : IrqSource) : (s.enterInterrupt i).ime = false := by
  simp only [State.enterInterrupt, setPc_ime, push16_ime]; rfl
@[simp] theorem enterInterrupt_imePending (s : State) (i : IrqSource) :
    (s.enterInterrupt i).imePending = false := by
  simp only [State.enterInterrupt, setPc_imePending, push16_imePending]; rfl
@[simp] theorem returnFromInterrupt_a (s : State) : (s.returnFromInterrupt).a = s.a := by
  simp only [State.returnFromInterrupt, setPc_a, afterPop_a]
@[simp] theorem returnFromInterrupt_f (s : State) : (s.returnFromInterrupt).f = s.f := by
  simp only [State.returnFromInterrupt, setPc_f, afterPop_f]
@[simp] theorem returnFromInterrupt_b (s : State) : (s.returnFromInterrupt).b = s.b := by
  simp only [State.returnFromInterrupt, setPc_b, afterPop_b]
@[simp] theorem returnFromInterrupt_c (s : State) : (s.returnFromInterrupt).c = s.c := by
  simp only [State.returnFromInterrupt, setPc_c, afterPop_c]
@[simp] theorem returnFromInterrupt_d (s : State) : (s.returnFromInterrupt).d = s.d := by
  simp only [State.returnFromInterrupt, setPc_d, afterPop_d]
@[simp] theorem returnFromInterrupt_e (s : State) : (s.returnFromInterrupt).e = s.e := by
  simp only [State.returnFromInterrupt, setPc_e, afterPop_e]
@[simp] theorem returnFromInterrupt_h (s : State) : (s.returnFromInterrupt).h = s.h := by
  simp only [State.returnFromInterrupt, setPc_h, afterPop_h]
@[simp] theorem returnFromInterrupt_l (s : State) : (s.returnFromInterrupt).l = s.l := by
  simp only [State.returnFromInterrupt, setPc_l, afterPop_l]
@[simp] theorem returnFromInterrupt_halted (s : State) : (s.returnFromInterrupt).halted = s.halted := by
  simp only [State.returnFromInterrupt, setPc_halted, afterPop_halted]
@[simp] theorem returnFromInterrupt_haltBug (s : State) : (s.returnFromInterrupt).haltBug = s.haltBug := by
  simp only [State.returnFromInterrupt, setPc_haltBug, afterPop_haltBug]
@[simp] theorem returnFromInterrupt_stopped (s : State) : (s.returnFromInterrupt).stopped = s.stopped := by
  simp only [State.returnFromInterrupt, setPc_stopped, afterPop_stopped]
@[simp] theorem returnFromInterrupt_ie (s : State) : (s.returnFromInterrupt).ie = s.ie := by
  simp only [State.returnFromInterrupt, setPc_ie, afterPop_ie]
@[simp] theorem returnFromInterrupt_ifReg (s : State) : (s.returnFromInterrupt).ifReg = s.ifReg := by
  simp only [State.returnFromInterrupt, setPc_ifReg, afterPop_ifReg]
@[simp] theorem returnFromInterrupt_key1Arm (s : State) : (s.returnFromInterrupt).key1Arm = s.key1Arm := by
  simp only [State.returnFromInterrupt, setPc_key1Arm, afterPop_key1Arm]
@[simp] theorem returnFromInterrupt_doubleSpeed (s : State) : (s.returnFromInterrupt).doubleSpeed = s.doubleSpeed := by
  simp only [State.returnFromInterrupt, setPc_doubleSpeed, afterPop_doubleSpeed]
@[simp] theorem returnFromInterrupt_mem (s : State) : (s.returnFromInterrupt).mem = s.mem := by
  simp only [State.returnFromInterrupt, setPc_mem, afterPop_mem]
@[simp] theorem returnFromInterrupt_platform (s : State) : (s.returnFromInterrupt).platform = s.platform := by
  simp only [State.returnFromInterrupt, setPc_platform, afterPop_platform]
@[simp] theorem returnFromInterrupt_env (s : State) : (s.returnFromInterrupt).env = s.env := by
  simp only [State.returnFromInterrupt, setPc_env, afterPop_env]
@[simp] theorem returnFromInterrupt_sp (s : State) : s.returnFromInterrupt.sp = s.sp + 2 := by
  simp only [State.returnFromInterrupt, setPc_sp, afterPop_sp]
@[simp] theorem returnFromInterrupt_pc (s : State) : s.returnFromInterrupt.pc = s.popWord := rfl
@[simp] theorem returnFromInterrupt_ime (s : State) : s.returnFromInterrupt.ime = true := rfl
@[simp] theorem returnFromInterrupt_imePending (s : State) :
    s.returnFromInterrupt.imePending = false := rfl

/-! ## Flags after an operation that writes none -/

@[simp] theorem afterRead_flagZ (s : State) (a : Addr) : (s.afterRead a).flagZ = s.flagZ := by
  simp [State.flagZ]
@[simp] theorem afterRead_flagN (s : State) (a : Addr) : (s.afterRead a).flagN = s.flagN := by
  simp [State.flagN]
@[simp] theorem afterRead_flagH (s : State) (a : Addr) : (s.afterRead a).flagH = s.flagH := by
  simp [State.flagH]
@[simp] theorem afterRead_flagC (s : State) (a : Addr) : (s.afterRead a).flagC = s.flagC := by
  simp [State.flagC]
@[simp] theorem writeByte_flagZ (s : State) (a : Addr) (v : Byte) : (s.writeByte a v).flagZ = s.flagZ := by
  simp [State.flagZ]
@[simp] theorem writeByte_flagN (s : State) (a : Addr) (v : Byte) : (s.writeByte a v).flagN = s.flagN := by
  simp [State.flagN]
@[simp] theorem writeByte_flagH (s : State) (a : Addr) (v : Byte) : (s.writeByte a v).flagH = s.flagH := by
  simp [State.flagH]
@[simp] theorem writeByte_flagC (s : State) (a : Addr) (v : Byte) : (s.writeByte a v).flagC = s.flagC := by
  simp [State.flagC]
@[simp] theorem push16_flagZ (s : State) (w : Word) : (s.push16 w).flagZ = s.flagZ := by
  simp [State.flagZ]
@[simp] theorem push16_flagN (s : State) (w : Word) : (s.push16 w).flagN = s.flagN := by
  simp [State.flagN]
@[simp] theorem push16_flagH (s : State) (w : Word) : (s.push16 w).flagH = s.flagH := by
  simp [State.flagH]
@[simp] theorem push16_flagC (s : State) (w : Word) : (s.push16 w).flagC = s.flagC := by
  simp [State.flagC]
@[simp] theorem afterPop_flagZ (s : State) : (s.afterPop).flagZ = s.flagZ := by
  simp [State.flagZ]
@[simp] theorem afterPop_flagN (s : State) : (s.afterPop).flagN = s.flagN := by
  simp [State.flagN]
@[simp] theorem afterPop_flagH (s : State) : (s.afterPop).flagH = s.flagH := by
  simp [State.flagH]
@[simp] theorem afterPop_flagC (s : State) : (s.afterPop).flagC = s.flagC := by
  simp [State.flagC]

/-! ## Operands -/

@[simp] theorem readPlace_reg (s : State) (r : Reg8) : s.readPlace (.reg r) = s.reg8 r := rfl
@[simp] theorem readPlace_ind (s : State) : s.readPlace .ind = s.readByte s.hl := rfl
@[simp] theorem afterReadPlace_reg (s : State) (r : Reg8) : s.afterReadPlace (.reg r) = s := rfl
@[simp] theorem afterReadPlace_ind (s : State) : s.afterReadPlace .ind = s.afterRead s.hl := rfl
@[simp] theorem writePlace_reg (s : State) (r : Reg8) (v : Byte) :
    s.writePlace (.reg r) v = s.setReg8 r v := rfl
@[simp] theorem writePlace_ind (s : State) (v : Byte) : s.writePlace .ind v = s.writeByte s.hl v := rfl
@[simp] theorem src8_reg (s : State) (r : Reg8) : s.src8 (.reg r) = s.reg8 r := rfl
@[simp] theorem src8_imm (s : State) (n : Byte) : s.src8 (.imm n) = n := rfl
@[simp] theorem src8_ind (s : State) : s.src8 .ind = s.readByte s.hl := rfl
@[simp] theorem afterSrc8_reg (s : State) (r : Reg8) : s.afterSrc8 (.reg r) = s := rfl
@[simp] theorem afterSrc8_imm (s : State) (n : Byte) : s.afterSrc8 (.imm n) = s := rfl
@[simp] theorem afterSrc8_ind (s : State) : s.afterSrc8 .ind = s.afterRead s.hl := rfl


end Sys2Proof.Machine
end

