-- ==== Sys2Proof/Laws/Frames.lean ====
section
/-! SUPPORT. The vocabulary of the claims, reduced to fields: when two states read the same, when a state
is another with one or two bytes stored, and numbers for the bit-level operations. -/

namespace Sys2Proof.Machine

/-! ## The same bytes -/

/-- The two states hold the same bytes everywhere. -/
def SameBytes (s t : State) : Prop :=
  t.ie = s.ie ∧ t.ifReg = s.ifReg ∧ t.key1Arm = s.key1Arm ∧ t.doubleSpeed = s.doubleSpeed ∧
  t.mem = s.mem ∧ t.platform = s.platform

theorem SameBytes.peek {s t : State} (h : SameBytes s t) (a : Addr) : t.peek a = s.peek a := by
  obtain ⟨h1, h2, h3, h4, h5, h6⟩ := h
  simp [State.peek, State.readIf, State.readKey1, State.inRam, h1, h2, h3, h4, h5, h6]

theorem SameBytes.stores_nil {s t : State} (h : SameBytes s t) : Stores [] s t :=
  ⟨by simp, fun a _ => h.peek a, fun _ => h.1, fun _ => h.2.1, fun _ => h.2.2.1⟩

theorem SameBytes.stores {s t u : State} {l : List (Addr × Byte)} (h : SameBytes t u)
    (ht : Stores l s t) : Stores l s u := by
  obtain ⟨h1, h2, h3, h4, h5⟩ := ht
  refine ⟨fun x hx => ?_, fun a ha => ?_, fun ha => ?_, fun ha => ?_, fun ha => ?_⟩
  · rw [h.peek, h1 x hx]
  · rw [h.peek, h2 a ha]
  · rw [h.1, h3 ha]
  · rw [h.2.1, h4 ha]
  · rw [h.2.2.1, h5 ha]

/-- What a state finds depends on its parameters and double_speed alone. -/
theorem found_congr {s t : State} (hd : t.doubleSpeed = s.doubleSpeed) (hp : t.platform = s.platform)
    (a : Addr) (v : Byte) : t.found a v = s.found a v := by
  simp [State.found, State.inRam, hd, hp]

/-- The bit-level reading of a stored byte is the arithmetic one. -/
theorem found_eq (s : State) (a : Addr) (v : Byte) : (s.writeByte a v).peek a = s.found a v := by
  rw [peek_writeByte, if_pos rfl]
  have hif : v ||| 0xE0 = BitVec.ofNat 8 (224 + v.toNat % 32) := by
    revert v; decide
  have hk : ∀ d : Bool, BitVec.ofBool d ++ (0b111111 : BitVec 6) ++ BitVec.ofBool (v.getLsbD 0) =
      BitVec.ofNat 8 (128 * d.toNat + 126 + v.toNat % 2) := by
    revert v; decide
  unfold State.found
  rw [hif, hk]
  simp only [ieAddr, ifAddr, key1Addr]
  cases s.platform.model <;> rfl

theorem stores_writeByte {s t : State} {a : Addr} {v : Byte} (h : SameBytes (s.writeByte a v) t) :
    Stores [(a, v)] s t := by
  refine h.stores ⟨?_, ?_, ?_, ?_, ?_⟩
  · intro x hx
    obtain rfl : x = (a, v) := by simpa using hx
    exact found_eq s a v
  · intro b hb
    rw [peek_writeByte, if_neg (by simpa using hb)]
  · intro hb
    rw [writeByte_ie, if_neg]
    intro hab
    exact hb (by simp [hab, ieAddr])
  · intro hb
    rw [writeByte_ifReg, if_neg]
    intro hab
    exact hb (by simp [hab, ifAddr])
  · intro hb
    rw [writeByte_key1Arm, if_neg]
    intro hab
    exact hb (by simp [hab.1, key1Addr])

/-- Two bytes stored at different addresses. -/
theorem stores_writeByte_two {s t : State} {a b : Addr} {v w : Byte} (hab : a ≠ b)
    (h : SameBytes ((s.writeByte a v).writeByte b w) t) : Stores [(a, v), (b, w)] s t := by
  have h1 : Stores [(a, v)] s (s.writeByte a v) := stores_writeByte ⟨rfl, rfl, rfl, rfl, rfl, rfl⟩
  have h2 : Stores [(b, w)] (s.writeByte a v) ((s.writeByte a v).writeByte b w) :=
    stores_writeByte ⟨rfl, rfl, rfl, rfl, rfl, rfl⟩
  refine h.stores ⟨?_, ?_, ?_, ?_, ?_⟩
  · intro x hx
    rcases List.mem_cons.1 hx with rfl | hx
    · rw [h2.2.1 a (by simpa using hab)]
      exact h1.1 (a, v) (by simp)
    · obtain rfl : x = (b, w) := by simpa using hx
      rw [h2.1 (b, w) (by simp)]
      exact found_congr (writeByte_doubleSpeed s a v) (writeByte_platform s a v) b w
  · intro c hc
    simp only [List.map_cons, List.map_nil, List.mem_cons, List.not_mem_nil, or_false, not_or] at hc
    rw [h2.2.1 c (by simpa using hc.2), h1.2.1 c (by simpa using hc.1)]
  · intro hc
    simp only [List.map_cons, List.map_nil, List.mem_cons, List.not_mem_nil, or_false, not_or] at hc
    rw [h2.2.2.1 (by simpa using hc.2), h1.2.2.1 (by simpa using hc.1)]
  · intro hc
    simp only [List.map_cons, List.map_nil, List.mem_cons, List.not_mem_nil, or_false, not_or] at hc
    rw [h2.2.2.2.1 (by simpa using hc.2), h1.2.2.2.1 (by simpa using hc.1)]
  · intro hc
    simp only [List.map_cons, List.map_nil, List.mem_cons, List.not_mem_nil, or_false, not_or] at hc
    rw [h2.2.2.2.2 (by simpa using hc.2), h1.2.2.2.2 (by simpa using hc.1)]

theorem SameBytes.writeByte {s t : State} (h : SameBytes s t) (a : Addr) (v : Byte) :
    SameBytes (s.writeByte a v) (t.writeByte a v) := by
  obtain ⟨h1, h2, h3, h4, h5, h6⟩ := h
  have hr : t.inRam a = s.inRam a := by simp [State.inRam, h6]
  refine ⟨?_, ?_, ?_, ?_, ?_, ?_⟩ <;>
    simp [writeByte_ie, writeByte_ifReg, writeByte_key1Arm, writeByte_mem, h1, h2, h3, h4, h5, h6, hr]

theorem SameBytes.trans {s t u : State} (h : SameBytes s t) (g : SameBytes t u) : SameBytes s u :=
  ⟨g.1.trans h.1, g.2.1.trans h.2.1, g.2.2.1.trans h.2.2.1, g.2.2.2.1.trans h.2.2.2.1,
    g.2.2.2.2.1.trans h.2.2.2.2.1, g.2.2.2.2.2.trans h.2.2.2.2.2⟩

/-- A push from a state with the same bytes and the same SP stores its two bytes. -/
theorem stores_push16 {s t u : State} {w v : Word} (hw : v = w) (hb : SameBytes s u) (hs : u.sp = s.sp)
    (h : SameBytes (u.push16 v) t) : Stores (pushed s w) s t := by
  subst hw
  have e : SameBytes ((s.writeByte (s.sp - 1) (hi8 v)).writeByte (s.sp - 2) (lo8 v)) (u.push16 v) := by
    rw [push16_eq, hs]
    exact (hb.writeByte _ _).writeByte _ _
  have hh : hi8 v = BitVec.ofNat 8 (v.toNat / 256) := by
    apply BitVec.eq_of_toNat_eq
    simp [hi8, BitVec.extractLsb'_toNat, Nat.shiftRight_eq_div_pow]
  have hl : lo8 v = BitVec.ofNat 8 (v.toNat % 256) := by
    apply BitVec.eq_of_toNat_eq
    simp [lo8, BitVec.extractLsb'_toNat]
  unfold pushed
  rw [← hh, ← hl]
  exact stores_writeByte_two (by bv_omega) (e.trans h)

/-! ## Numbers -/

theorem hi8_eq (w : Word) : hi8 w = BitVec.ofNat 8 (w.toNat / 256) := by
  apply BitVec.eq_of_toNat_eq
  simp [hi8, BitVec.extractLsb'_toNat, Nat.shiftRight_eq_div_pow]

theorem lo8_eq (w : Word) : lo8 w = BitVec.ofNat 8 (w.toNat % 256) := by
  apply BitVec.eq_of_toNat_eq
  simp [lo8, BitVec.extractLsb'_toNat]

theorem hi8_toNat (w : Word) : (hi8 w).toNat = w.toNat / 256 := by
  rw [hi8_eq]
  have := w.isLt
  simp only [BitVec.toNat_ofNat]
  omega

theorem lo8_toNat (w : Word) : (lo8 w).toNat = w.toNat % 256 := by
  rw [lo8_eq]
  simp

theorem joinBytes_toNat (hi lo : Byte) : (joinBytes hi lo).toNat = 256 * hi.toNat + lo.toNat := by
  have h1 := hi.isLt
  have h2 := lo.isLt
  simp only [joinBytes, BitVec.toNat_append]
  rw [← Nat.shiftLeft_add_eq_or_of_lt h2, Nat.shiftLeft_eq]
  omega

theorem hi8_joinBytes (hi lo : Byte) : hi8 (joinBytes hi lo) = hi := by
  apply BitVec.eq_of_toNat_eq
  have h1 := hi.isLt
  have h2 := lo.isLt
  rw [hi8_toNat, joinBytes_toNat]
  omega

theorem lo8_joinBytes (hi lo : Byte) : lo8 (joinBytes hi lo) = lo := by
  apply BitVec.eq_of_toNat_eq
  have h1 := hi.isLt
  have h2 := lo.isLt
  rw [lo8_toNat, joinBytes_toNat]
  omega

theorem joinBytes_hi8_lo8 (w : Word) : joinBytes (hi8 w) (lo8 w) = w := by
  apply BitVec.eq_of_toNat_eq
  rw [joinBytes_toNat, hi8_toNat, lo8_toNat]
  omega

theorem packFlags_toNat (z n h c : Bool) :
    (packFlags z n h c).toNat = 128 * z.toNat + 64 * n.toNat + 32 * h.toNat + 16 * c.toNat := by
  cases z <;> cases n <;> cases h <;> cases c <;> rfl

@[simp] theorem setFlags_flagZ (s : State) (z n h c : Bool) : (s.setFlags z n h c).flagZ = z := by
  unfold State.flagZ
  rw [setFlags_f]
  revert z n h c
  decide
@[simp] theorem setFlags_flagN (s : State) (z n h c : Bool) : (s.setFlags z n h c).flagN = n := by
  unfold State.flagN
  rw [setFlags_f]
  revert z n h c
  decide
@[simp] theorem setFlags_flagH (s : State) (z n h c : Bool) : (s.setFlags z n h c).flagH = h := by
  unfold State.flagH
  rw [setFlags_f]
  revert z n h c
  decide
@[simp] theorem setFlags_flagC (s : State) (z n h c : Bool) : (s.setFlags z n h c).flagC = c := by
  unfold State.flagC
  rw [setFlags_f]
  revert z n h c
  decide

theorem flagsAre_setFlags (s : State) (z n h c : Bool) : FlagsAre z n h c (s.setFlags z n h c) :=
  packFlags_toNat z n h c

/-- A pair written is the pair read. -/
@[simp] theorem setReg16_reg16_same (s : State) (p : Reg16) (w : Word) :
    (s.setReg16 p w).reg16 p = w := by
  cases p <;> exact joinBytes_hi8_lo8 w

@[simp] theorem setReg16_hl_same (s : State) (w : Word) : (s.setReg16 .hl w).hl = w :=
  joinBytes_hi8_lo8 w

/-- A pair written leaves the registers outside it. -/
theorem regsKept_setReg16 (s : State) (p : Reg16) (w : Word) :
    RegsKept (pairRegs p) s (s.setReg16 p w) := by
  intro r hr
  cases p <;> cases r <;> first | rfl | exact absurd (by decide) hr

/-- PC past `n` bytes, as the fetches leave it. -/
theorem codeAddr_eq (s : State) (n : Nat) : s.codeAddr n = nextPc n s := by
  unfold State.codeAddr nextPc
  split <;> simp_all

end Sys2Proof.Machine
end

