-- ==== Sys2Proof/Laws/PerInstr.lean ====
section
/-! SUPPORT. A fact about every instruction as syntax, one lemma per constructor: its encoding is as long
as its format says, and byte 0 alone decides that length (30_encoding.md R91, R92). -/

namespace Sys2Proof.Laws

/-- The bytes of `i` are `i.size` many, and the first of them announces that length. -/
def EncodedLength.Statement (i : Instr) : Prop :=
  (encode i).length = i.size ∧ (encode i).head?.map instrLength = some i.size

theorem EncodedLength.nop : EncodedLength.Statement .nop := ⟨rfl, rfl⟩

theorem EncodedLength.ldR16N16 (p : Reg16) (n : Word) : EncodedLength.Statement (.ldR16N16 p n) := by
  cases p <;> exact ⟨rfl, rfl⟩

theorem EncodedLength.ldSpN16 (n : Word) : EncodedLength.Statement (.ldSpN16 n) := ⟨rfl, rfl⟩

theorem EncodedLength.ldBcA : EncodedLength.Statement .ldBcA := ⟨rfl, rfl⟩

theorem EncodedLength.ldDeA : EncodedLength.Statement .ldDeA := ⟨rfl, rfl⟩

theorem EncodedLength.ldHliA : EncodedLength.Statement .ldHliA := ⟨rfl, rfl⟩

theorem EncodedLength.ldHldA : EncodedLength.Statement .ldHldA := ⟨rfl, rfl⟩

theorem EncodedLength.ldABc : EncodedLength.Statement .ldABc := ⟨rfl, rfl⟩

theorem EncodedLength.ldADe : EncodedLength.Statement .ldADe := ⟨rfl, rfl⟩

theorem EncodedLength.ldAHli : EncodedLength.Statement .ldAHli := ⟨rfl, rfl⟩

theorem EncodedLength.ldAHld : EncodedLength.Statement .ldAHld := ⟨rfl, rfl⟩

theorem EncodedLength.incR16 (p : Reg16) : EncodedLength.Statement (.incR16 p) := by
  cases p <;> exact ⟨rfl, by decide⟩

theorem EncodedLength.incSp : EncodedLength.Statement .incSp := ⟨rfl, rfl⟩

theorem EncodedLength.decR16 (p : Reg16) : EncodedLength.Statement (.decR16 p) := by
  cases p <;> exact ⟨rfl, by decide⟩

theorem EncodedLength.decSp : EncodedLength.Statement .decSp := ⟨rfl, rfl⟩

theorem EncodedLength.incR8 (r : Reg8) : EncodedLength.Statement (.incR8 r) := by
  cases r <;> exact ⟨rfl, by decide⟩

theorem EncodedLength.incInd : EncodedLength.Statement .incInd := ⟨rfl, rfl⟩

theorem EncodedLength.decR8 (r : Reg8) : EncodedLength.Statement (.decR8 r) := by
  cases r <;> exact ⟨rfl, by decide⟩

theorem EncodedLength.decInd : EncodedLength.Statement .decInd := ⟨rfl, rfl⟩

theorem EncodedLength.ldR8N8 (r : Reg8) (n : Byte) : EncodedLength.Statement (.ldR8N8 r n) := by
  cases r <;> exact ⟨rfl, rfl⟩

theorem EncodedLength.ldIndN8 (n : Byte) : EncodedLength.Statement (.ldIndN8 n) := ⟨rfl, rfl⟩

theorem EncodedLength.rlca : EncodedLength.Statement .rlca := ⟨rfl, rfl⟩

theorem EncodedLength.rrca : EncodedLength.Statement .rrca := ⟨rfl, rfl⟩

theorem EncodedLength.rla : EncodedLength.Statement .rla := ⟨rfl, rfl⟩

theorem EncodedLength.rra : EncodedLength.Statement .rra := ⟨rfl, rfl⟩

theorem EncodedLength.daa : EncodedLength.Statement .daa := ⟨rfl, rfl⟩

theorem EncodedLength.cpl : EncodedLength.Statement .cpl := ⟨rfl, rfl⟩

theorem EncodedLength.scf : EncodedLength.Statement .scf := ⟨rfl, rfl⟩

theorem EncodedLength.ccf : EncodedLength.Statement .ccf := ⟨rfl, rfl⟩

theorem EncodedLength.ldN16Sp (n : Word) : EncodedLength.Statement (.ldN16Sp n) := ⟨rfl, rfl⟩

theorem EncodedLength.stop (b : Byte) : EncodedLength.Statement (.stop b) := ⟨rfl, rfl⟩

theorem EncodedLength.jr (e : Byte) : EncodedLength.Statement (.jr e) := ⟨rfl, rfl⟩

theorem EncodedLength.jrCc (cc : Cond) (e : Byte) : EncodedLength.Statement (.jrCc cc e) := by
  cases cc <;> exact ⟨rfl, rfl⟩

theorem EncodedLength.addHlR16 (p : Reg16) : EncodedLength.Statement (.addHlR16 p) := by
  cases p <;> exact ⟨rfl, by decide⟩

theorem EncodedLength.addHlSp : EncodedLength.Statement .addHlSp := ⟨rfl, rfl⟩

theorem EncodedLength.ldR8R8 (dst : Reg8) (src : Reg8) : EncodedLength.Statement (.ldR8R8 dst src) := by
  cases dst <;> cases src <;> exact ⟨rfl, by decide⟩

theorem EncodedLength.ldR8Ind (r : Reg8) : EncodedLength.Statement (.ldR8Ind r) := by
  cases r <;> exact ⟨rfl, by decide⟩

theorem EncodedLength.ldIndR8 (r : Reg8) : EncodedLength.Statement (.ldIndR8 r) := by
  cases r <;> exact ⟨rfl, by decide⟩

theorem EncodedLength.halt : EncodedLength.Statement .halt := ⟨rfl, rfl⟩

theorem EncodedLength.addR8 (r : Reg8) : EncodedLength.Statement (.addR8 r) := by
  cases r <;> exact ⟨rfl, by decide⟩

theorem EncodedLength.addInd : EncodedLength.Statement .addInd := ⟨rfl, rfl⟩

theorem EncodedLength.addN8 (n : Byte) : EncodedLength.Statement (.addN8 n) := ⟨rfl, rfl⟩

theorem EncodedLength.adcR8 (r : Reg8) : EncodedLength.Statement (.adcR8 r) := by
  cases r <;> exact ⟨rfl, by decide⟩

theorem EncodedLength.adcInd : EncodedLength.Statement .adcInd := ⟨rfl, rfl⟩

theorem EncodedLength.adcN8 (n : Byte) : EncodedLength.Statement (.adcN8 n) := ⟨rfl, rfl⟩

theorem EncodedLength.subR8 (r : Reg8) : EncodedLength.Statement (.subR8 r) := by
  cases r <;> exact ⟨rfl, by decide⟩

theorem EncodedLength.subInd : EncodedLength.Statement .subInd := ⟨rfl, rfl⟩

theorem EncodedLength.subN8 (n : Byte) : EncodedLength.Statement (.subN8 n) := ⟨rfl, rfl⟩

theorem EncodedLength.sbcR8 (r : Reg8) : EncodedLength.Statement (.sbcR8 r) := by
  cases r <;> exact ⟨rfl, by decide⟩

theorem EncodedLength.sbcInd : EncodedLength.Statement .sbcInd := ⟨rfl, rfl⟩

theorem EncodedLength.sbcN8 (n : Byte) : EncodedLength.Statement (.sbcN8 n) := ⟨rfl, rfl⟩

theorem EncodedLength.andR8 (r : Reg8) : EncodedLength.Statement (.andR8 r) := by
  cases r <;> exact ⟨rfl, by decide⟩

theorem EncodedLength.andInd : EncodedLength.Statement .andInd := ⟨rfl, rfl⟩

theorem EncodedLength.andN8 (n : Byte) : EncodedLength.Statement (.andN8 n) := ⟨rfl, rfl⟩

theorem EncodedLength.xorR8 (r : Reg8) : EncodedLength.Statement (.xorR8 r) := by
  cases r <;> exact ⟨rfl, by decide⟩

theorem EncodedLength.xorInd : EncodedLength.Statement .xorInd := ⟨rfl, rfl⟩

theorem EncodedLength.xorN8 (n : Byte) : EncodedLength.Statement (.xorN8 n) := ⟨rfl, rfl⟩

theorem EncodedLength.orR8 (r : Reg8) : EncodedLength.Statement (.orR8 r) := by
  cases r <;> exact ⟨rfl, by decide⟩

theorem EncodedLength.orInd : EncodedLength.Statement .orInd := ⟨rfl, rfl⟩

theorem EncodedLength.orN8 (n : Byte) : EncodedLength.Statement (.orN8 n) := ⟨rfl, rfl⟩

theorem EncodedLength.cpR8 (r : Reg8) : EncodedLength.Statement (.cpR8 r) := by
  cases r <;> exact ⟨rfl, by decide⟩

theorem EncodedLength.cpInd : EncodedLength.Statement .cpInd := ⟨rfl, rfl⟩

theorem EncodedLength.cpN8 (n : Byte) : EncodedLength.Statement (.cpN8 n) := ⟨rfl, rfl⟩

theorem EncodedLength.retCc (cc : Cond) : EncodedLength.Statement (.retCc cc) := by
  cases cc <;> exact ⟨rfl, by decide⟩

theorem EncodedLength.ret : EncodedLength.Statement .ret := ⟨rfl, rfl⟩

theorem EncodedLength.reti : EncodedLength.Statement .reti := ⟨rfl, rfl⟩

theorem EncodedLength.popR16 (p : Reg16) : EncodedLength.Statement (.popR16 p) := by
  cases p <;> exact ⟨rfl, by decide⟩

theorem EncodedLength.popAf : EncodedLength.Statement .popAf := ⟨rfl, rfl⟩

theorem EncodedLength.pushR16 (p : Reg16) : EncodedLength.Statement (.pushR16 p) := by
  cases p <;> exact ⟨rfl, by decide⟩

theorem EncodedLength.pushAf : EncodedLength.Statement .pushAf := ⟨rfl, rfl⟩

theorem EncodedLength.jpCc (cc : Cond) (n : Word) : EncodedLength.Statement (.jpCc cc n) := by
  cases cc <;> exact ⟨rfl, rfl⟩

theorem EncodedLength.jp (n : Word) : EncodedLength.Statement (.jp n) := ⟨rfl, rfl⟩

theorem EncodedLength.jpHl : EncodedLength.Statement .jpHl := ⟨rfl, rfl⟩

theorem EncodedLength.callCc (cc : Cond) (n : Word) : EncodedLength.Statement (.callCc cc n) := by
  cases cc <;> exact ⟨rfl, rfl⟩

theorem EncodedLength.call (n : Word) : EncodedLength.Statement (.call n) := ⟨rfl, rfl⟩

theorem EncodedLength.rst (t : BitVec 3) : EncodedLength.Statement (.rst t) := by
  (revert t; unfold EncodedLength.Statement; decide)

theorem EncodedLength.ldhN8A (n : Byte) : EncodedLength.Statement (.ldhN8A n) := ⟨rfl, rfl⟩

theorem EncodedLength.ldhAN8 (n : Byte) : EncodedLength.Statement (.ldhAN8 n) := ⟨rfl, rfl⟩

theorem EncodedLength.ldhCA : EncodedLength.Statement .ldhCA := ⟨rfl, rfl⟩

theorem EncodedLength.ldhAC : EncodedLength.Statement .ldhAC := ⟨rfl, rfl⟩

theorem EncodedLength.ldN16A (n : Word) : EncodedLength.Statement (.ldN16A n) := ⟨rfl, rfl⟩

theorem EncodedLength.ldAN16 (n : Word) : EncodedLength.Statement (.ldAN16 n) := ⟨rfl, rfl⟩

theorem EncodedLength.addSpE8 (e : Byte) : EncodedLength.Statement (.addSpE8 e) := ⟨rfl, rfl⟩

theorem EncodedLength.ldHlSpE8 (e : Byte) : EncodedLength.Statement (.ldHlSpE8 e) := ⟨rfl, rfl⟩

theorem EncodedLength.ldSpHl : EncodedLength.Statement .ldSpHl := ⟨rfl, rfl⟩

theorem EncodedLength.di : EncodedLength.Statement .di := ⟨rfl, rfl⟩

theorem EncodedLength.ei : EncodedLength.Statement .ei := ⟨rfl, rfl⟩

theorem EncodedLength.illegalD3 : EncodedLength.Statement .illegalD3 := ⟨rfl, rfl⟩

theorem EncodedLength.illegalDB : EncodedLength.Statement .illegalDB := ⟨rfl, rfl⟩

theorem EncodedLength.illegalDD : EncodedLength.Statement .illegalDD := ⟨rfl, rfl⟩

theorem EncodedLength.illegalE3 : EncodedLength.Statement .illegalE3 := ⟨rfl, rfl⟩

theorem EncodedLength.illegalE4 : EncodedLength.Statement .illegalE4 := ⟨rfl, rfl⟩

theorem EncodedLength.illegalEB : EncodedLength.Statement .illegalEB := ⟨rfl, rfl⟩

theorem EncodedLength.illegalEC : EncodedLength.Statement .illegalEC := ⟨rfl, rfl⟩

theorem EncodedLength.illegalED : EncodedLength.Statement .illegalED := ⟨rfl, rfl⟩

theorem EncodedLength.illegalF4 : EncodedLength.Statement .illegalF4 := ⟨rfl, rfl⟩

theorem EncodedLength.illegalFC : EncodedLength.Statement .illegalFC := ⟨rfl, rfl⟩

theorem EncodedLength.illegalFD : EncodedLength.Statement .illegalFD := ⟨rfl, rfl⟩

theorem EncodedLength.rlcR8 (r : Reg8) : EncodedLength.Statement (.rlcR8 r) := by
  cases r <;> exact ⟨rfl, by decide⟩

theorem EncodedLength.rlcInd : EncodedLength.Statement .rlcInd := ⟨rfl, rfl⟩

theorem EncodedLength.rrcR8 (r : Reg8) : EncodedLength.Statement (.rrcR8 r) := by
  cases r <;> exact ⟨rfl, by decide⟩

theorem EncodedLength.rrcInd : EncodedLength.Statement .rrcInd := ⟨rfl, rfl⟩

theorem EncodedLength.rlR8 (r : Reg8) : EncodedLength.Statement (.rlR8 r) := by
  cases r <;> exact ⟨rfl, by decide⟩

theorem EncodedLength.rlInd : EncodedLength.Statement .rlInd := ⟨rfl, rfl⟩

theorem EncodedLength.rrR8 (r : Reg8) : EncodedLength.Statement (.rrR8 r) := by
  cases r <;> exact ⟨rfl, by decide⟩

theorem EncodedLength.rrInd : EncodedLength.Statement .rrInd := ⟨rfl, rfl⟩

theorem EncodedLength.slaR8 (r : Reg8) : EncodedLength.Statement (.slaR8 r) := by
  cases r <;> exact ⟨rfl, by decide⟩

theorem EncodedLength.slaInd : EncodedLength.Statement .slaInd := ⟨rfl, rfl⟩

theorem EncodedLength.sraR8 (r : Reg8) : EncodedLength.Statement (.sraR8 r) := by
  cases r <;> exact ⟨rfl, by decide⟩

theorem EncodedLength.sraInd : EncodedLength.Statement .sraInd := ⟨rfl, rfl⟩

theorem EncodedLength.swapR8 (r : Reg8) : EncodedLength.Statement (.swapR8 r) := by
  cases r <;> exact ⟨rfl, by decide⟩

theorem EncodedLength.swapInd : EncodedLength.Statement .swapInd := ⟨rfl, rfl⟩

theorem EncodedLength.srlR8 (r : Reg8) : EncodedLength.Statement (.srlR8 r) := by
  cases r <;> exact ⟨rfl, by decide⟩

theorem EncodedLength.srlInd : EncodedLength.Statement .srlInd := ⟨rfl, rfl⟩

theorem EncodedLength.bitR8 (u : BitVec 3) (r : Reg8) : EncodedLength.Statement (.bitR8 u r) := by
  cases r <;> (revert u; unfold EncodedLength.Statement; decide)

theorem EncodedLength.bitInd (u : BitVec 3) : EncodedLength.Statement (.bitInd u) := by
  (revert u; unfold EncodedLength.Statement; decide)

theorem EncodedLength.resR8 (u : BitVec 3) (r : Reg8) : EncodedLength.Statement (.resR8 u r) := by
  cases r <;> (revert u; unfold EncodedLength.Statement; decide)

theorem EncodedLength.resInd (u : BitVec 3) : EncodedLength.Statement (.resInd u) := by
  (revert u; unfold EncodedLength.Statement; decide)

theorem EncodedLength.setR8 (u : BitVec 3) (r : Reg8) : EncodedLength.Statement (.setR8 u r) := by
  cases r <;> (revert u; unfold EncodedLength.Statement; decide)

theorem EncodedLength.setInd (u : BitVec 3) : EncodedLength.Statement (.setInd u) := by
  (revert u; unfold EncodedLength.Statement; decide)

end Sys2Proof.Laws
end

