-- ==== Sys2Proof/Laws/Step.lean ====
section
/-! SUPPORT. Everything one step can do, said once: the waits, an interrupt, or one instruction. -/

namespace Sys2Proof.Machine

theorem lowestPending_eq_none (p : BitVec 5) : lowestPending p = none ↔ p = 0 := by
  revert p; decide

/-- The instruction bytes are read without changing anything but the answers used up. -/
theorem fetch_state (s : State) : ∃ k, s.fetch.2 = { s with draws := k } := by
  unfold State.fetch
  dsimp only
  split <;> simp only [afterRead_eq] <;> exact ⟨_, rfl⟩

/-- The delayed effect of EI (60_exceptions.md R316 (5)). -/
theorem armIme_eq (arm : Bool) (s : State) :
    s.armIme arm =
      { s with
        ime := s.ime || (arm && s.imePending)
        imePending := s.imePending && !(arm && s.imePending) } := by
  unfold State.armIme
  cases h : arm && s.imePending <;> simp

/-- An instruction that goes on is all a step that goes on can have executed. -/
theorem completeStep_next {arm : Bool} {r : Result} {t : State} (h : completeStep arm r = .next t) :
    ∃ v, r = .next v ∧ t = v.armIme arm := by
  cases r <;> simp [completeStep] at h
  exact ⟨_, rfl, h.symm⟩

/-- The four phases and their conditions (60_exceptions.md R316 (0) to (4)). -/
theorem prepare_cases (s : State) :
    (s.prepare = .idle s.afterEnv ∧ s.stopped = true ∧ s.envMove.button = false) ∨
    ((s.stopped = true → s.envMove.button = true) ∧
      ((s.prepare = .idle { s.afterEnv with stopped := false } ∧ s.halted = true ∧
          s.afterEnv.pending = 0) ∨
       (∃ i, s.prepare = .interrupt i s.awake ∧ s.ime = true ∧
          lowestPending s.afterEnv.pending = some i ∧ s.afterEnv.pending ≠ 0) ∨
       (s.prepare = .execute s.awake ∧ s.runs))) := by
  by_cases h1 : (s.stopped && !s.envMove.button) = true
  · refine .inl ⟨?_, by simp_all, by simp_all⟩
    unfold State.prepare
    dsimp only
    rw [if_pos h1]
  · have hb : s.stopped = true → s.envMove.button = true := by
      intro h
      simp_all
    refine .inr ⟨hb, ?_⟩
    have hp : s.prepare = ({ s.afterEnv with stopped := false } : State).checkInterrupt := by
      unfold State.prepare
      dsimp only
      rw [if_neg h1]
    have hc : ({ s.afterEnv with stopped := false } : State).checkInterrupt =
        (if s.halted && s.afterEnv.pending == 0 then .idle { s.afterEnv with stopped := false }
         else
           match lowestPending s.afterEnv.pending with
           | some i => if s.ime then .interrupt i s.awake else .execute s.awake
           | none => .execute s.awake) := rfl
    rw [hp, hc]
    by_cases h2 : (s.halted && s.afterEnv.pending == 0) = true
    · rw [if_pos h2]
      exact .inl ⟨rfl, by simp_all, by simp_all⟩
    · rw [if_neg h2]
      cases hl : lowestPending s.afterEnv.pending with
      | none =>
        refine .inr (.inr ⟨rfl, hb, ?_, fun _ => (lowestPending_eq_none _).1 hl⟩)
        intro h
        simp_all
      | some i =>
        have hne : s.afterEnv.pending ≠ 0 := by
          intro h0
          rw [(lowestPending_eq_none _).2 h0] at hl
          cases hl
        cases hi : s.ime with
        | true => exact .inr (.inl ⟨i, rfl, rfl, rfl, hne⟩)
        | false => exact .inr (.inr ⟨rfl, hb, fun _ => hne, fun h => by rw [hi] at h; cases h⟩)

/-- What a step answers in each phase. -/
theorem step_cases (s : State) :
    (step s = .next s.afterEnv ∧ s.stopped = true ∧ s.envMove.button = false) ∨
    ((s.stopped = true → s.envMove.button = true) ∧
      ((step s = .next { s.afterEnv with stopped := false } ∧ s.halted = true ∧
          s.afterEnv.pending = 0) ∨
       (∃ i, step s = .next (s.awake.enterInterrupt i) ∧ s.ime = true ∧
          lowestPending s.afterEnv.pending = some i ∧ s.afterEnv.pending ≠ 0) ∨
       (step s = completeStep s.imePending (exec s.awake.fetch.1 s.awake.fetch.2) ∧ s.runs))) := by
  unfold step
  rcases prepare_cases s with ⟨h, r⟩ | ⟨hb, ⟨h, r⟩ | ⟨i, h, r⟩ | ⟨h, r⟩⟩ <;> rw [h]
  · exact .inl ⟨rfl, r⟩
  · exact .inr ⟨hb, .inl ⟨rfl, r⟩⟩
  · exact .inr ⟨hb, .inr (.inl ⟨i, rfl, r⟩)⟩
  · exact .inr ⟨hb, .inr (.inr ⟨rfl, r⟩)⟩

end Sys2Proof.Machine
end

