-- ==== Sys2Proof/Tests/Slice0.lean ====
section
/-! SUPPORT. Tests by evaluation: the well-formedness checks, the decoding of every constructor from words
written out by the encoding of the spec, one step of each instruction with the values of the spec's own
examples, and for each statement with hypotheses a state that meets them. -/

namespace Sys2Proof.Tests

open Sys2Proof.Machine

/-! ## Well-formedness: each check refuses a term -/

theorem test_wellFormed_stop : (Instr.stop 0x00).wellFormed = true := by decide
theorem test_wellFormed_refuses_stop_operand : (Instr.stop 0x01).wellFormed = false := by decide
theorem test_wellFormed_refuses_unassigned : Instr.illegalD3.wellFormed = false := by decide

/-! ## Decoding: each constructor from a word of the encoding (R92 to R104) -/

/-- The one instruction a byte list is. -/
def reads (l : List Byte) : Option Instr :=
  match decode l with
  | .ok (i, []) => some i
  | _ => none

theorem test_decode_loads8 :
    ([
      [0x41], [0x3E, 0xFF], [0x46], [0x77], [0x36, 0x00], [0x0A], [0x1A], [0x02], [0x12],
      [0xFA, 0x34, 0x12], [0xF0, 0x0F], [0xE0, 0x4D], [0xF2], [0xE2], [0xEA, 0x00, 0xC0], [0x2A],
      [0x3A], [0x22], [0x32]] : List (List Byte)).map reads =
    ([
      .ldR8R8 .b .c, .ldR8N8 .a 0xFF, .ldR8Ind .b, .ldIndR8 .a, .ldIndN8 0x00, .ldABc, .ldADe,
      .ldBcA, .ldDeA, .ldAN16 0x1234, .ldhAN8 0x0F, .ldhN8A 0x4D, .ldhAC, .ldhCA, .ldN16A 0xC000,
      .ldAHli, .ldAHld, .ldHliA, .ldHldA] : List Instr).map some := by
  decide

theorem test_decode_shifts8 :
    ([
      [0x17], [0x07], [0x1F], [0x0F], [0xCB, 0x10], [0xCB, 0x16], [0xCB, 0x01], [0xCB, 0x06],
      [0xCB, 0x1F], [0xCB, 0x1E], [0xCB, 0x0A], [0xCB, 0x0E], [0xCB, 0x23], [0xCB, 0x26],
      [0xCB, 0x2C], [0xCB, 0x2E], [0xCB, 0x3D], [0xCB, 0x3E], [0xCB, 0x37],
      [0xCB, 0x36]] : List (List Byte)).map reads =
    ([
      .rla, .rlca, .rra, .rrca, .rlR8 .b, .rlInd, .rlcR8 .c, .rlcInd, .rrR8 .a, .rrInd,
      .rrcR8 .d, .rrcInd, .slaR8 .e, .slaInd, .sraR8 .h, .sraInd, .srlR8 .l, .srlInd, .swapR8 .a,
      .swapInd] : List Instr).map some := by
  decide

theorem test_decode_stack :
    ([
      [0xC5], [0xD1], [0xF5], [0xF1]] : List (List Byte)).map reads =
    ([
      .pushR16 .bc, .popR16 .de, .pushAf, .popAf] : List Instr).map some := by
  decide

theorem test_decode_incdec :
    ([
      [0x04], [0x34], [0x3D], [0x35], [0x13], [0x33], [0x2B],
      [0x3B]] : List (List Byte)).map reads =
    ([
      .incR8 .b, .incInd, .decR8 .a, .decInd, .incR16 .de, .incSp, .decR16 .hl,
      .decSp] : List Instr).map some := by
  decide

theorem test_decode_alu8 :
    ([
      [0xC6, 0xC6], [0x87], [0x86], [0xCE, 0x3B], [0x8B], [0x8E], [0xD6, 0x0F], [0x93], [0x96],
      [0xDE, 0x3A], [0x9C], [0x9E], [0xFE, 0x3C], [0xB8], [0xBE]] : List (List Byte)).map reads =
    ([
      .addN8 0xC6, .addR8 .a, .addInd, .adcN8 0x3B, .adcR8 .e, .adcInd, .subN8 0x0F, .subR8 .e,
      .subInd, .sbcN8 0x3A, .sbcR8 .h, .sbcInd, .cpN8 0x3C, .cpR8 .b,
      .cpInd] : List Instr).map some := by
  decide

theorem test_decode_logic8 :
    ([
      [0xE6, 0x3F], [0xA5], [0xA6], [0xF6, 0x03], [0xB7], [0xB6], [0xEE, 0x0F], [0xAF], [0xAE],
      [0x2F]] : List (List Byte)).map reads =
    ([
      .andN8 0x3F, .andR8 .l, .andInd, .orN8 0x03, .orR8 .a, .orInd, .xorN8 0x0F, .xorR8 .a,
      .xorInd, .cpl] : List Instr).map some := by
  decide

theorem test_decode_bitops :
    ([
      [0xCB, 0x7C], [0xCB, 0x46], [0xCB, 0xBF], [0xCB, 0x86], [0xCB, 0xD8], [0xCB, 0xFE], [0x37],
      [0x3F]] : List (List Byte)).map reads =
    ([
      .bitR8 7 .h, .bitInd 0, .resR8 7 .a, .resInd 0, .setR8 3 .b, .setInd 7, .scf,
      .ccf] : List Instr).map some := by
  decide

theorem test_decode_arith16 :
    ([
      [0x21, 0x00, 0xC0], [0x31, 0xFE, 0xFF], [0x08, 0x00, 0xC1], [0xF9], [0xF8, 0x02], [0x09],
      [0x39], [0xE8, 0x02]] : List (List Byte)).map reads =
    ([
      .ldR16N16 .hl 0xC000, .ldSpN16 0xFFFE, .ldN16Sp 0xC100, .ldSpHl, .ldHlSpE8 0x02,
      .addHlR16 .bc, .addHlSp, .addSpE8 0x02] : List Instr).map some := by
  decide

theorem test_decode_control :
    ([
      [0xC3, 0x50, 0x01], [0xCA, 0x00, 0x80], [0x18, 0x05], [0x20, 0xFB], [0xE9],
      [0xCD, 0x34, 0x12], [0xDC, 0x00, 0x20], [0xEF], [0xC9], [0xC8],
      [0xD9]] : List (List Byte)).map reads =
    ([
      .jp 0x0150, .jpCc .z 0x8000, .jr 0x05, .jrCc .nz 0xFB, .jpHl, .call 0x1234,
      .callCc .c 0x2000, .rst 5, .ret, .retCc .z, .reti] : List Instr).map some := by
  decide

theorem test_decode_misc :
    ([
      [0x27], [0xF3], [0xFB], [0x76], [0x10, 0x00], [0x00]] : List (List Byte)).map reads =
    ([
      .daa, .di, .ei, .halt, .stop 0x00, .nop] : List Instr).map some := by
  decide

theorem test_decode_unassigned :
    ([
      [0xD3], [0xDB], [0xDD], [0xE3], [0xE4], [0xEB], [0xEC], [0xED], [0xF4], [0xFC],
      [0xFD]] : List (List Byte)).map reads =
    ([
      .illegalD3, .illegalDB, .illegalDD, .illegalE3, .illegalE4, .illegalEB, .illegalEC,
      .illegalED, .illegalF4, .illegalFC, .illegalFD] : List Instr).map some := by
  decide

/-- A list that ends inside an instruction is refused by name, and bytes after one are left over. -/
theorem test_decode_refuses_truncated :
    (match decode [0xC3, 0x50] with
      | .error .truncated => true
      | .ok _ => false) = true := by decide
theorem test_decode_leaves_rest :
    (match decode [0x41, 0x99] with
      | .ok (i, rest) => i == .ldR8R8 .b .c && rest == [0x99]
      | .error _ => false) = true := by decide

/-- The host's rows: the bits of the first byte are the lowest (log 16). -/
theorem test_decodeTableWord :
    decodeTableWord 8 0x41 = some (.ldR8R8 .b .c) ∧
    decodeTableWord 16 0x37CB = some (.swapR8 .a) ∧
    decodeTableWord 24 0x0150C3 = some (.jp 0x0150) ∧
    decodeTableWord 8 0xC3 = some (.jp 0x0000) := by decide

/-! ## One step of each instruction: the examples of the rules -/

/-- The state after reset with PC at $0100 and plain registers, for the examples to set. -/
def base : State :=
  { State.reset with
    a := 0, f := 0, b := 0, c := 0, d := 0, e := 0, h := 0, l := 0, sp := 0xD000, ifReg := 0xE0 }

/-- Bytes stored in order. -/
def withBytes (s : State) : List (Addr × Byte) → State
  | [] => s
  | (a, v) :: rest => withBytes (s.writeByte a v) rest

/-- The step goes on to a state with the property. -/
def goesTo (s : State) (p : State → Bool) : Bool :=
  match step s with
  | .next t => p t
  | _ => false

/-- The instruction's bytes at PC, and the bytes listed, stored in `s`. -/
def placed (s : State) (i : Instr) (bytes : List (Addr × Byte)) : State :=
  withBytes s ((List.zip [s.pc, s.pc + 1, s.pc + 2] (encode i)) ++ bytes)

theorem test_ldR8R8 :
    goesTo (placed { base with b := 0x12, c := 0x34 } (.ldR8R8 .b .c) [])
      (fun t => t.b == 0x34 && t.c == 0x34 && t.pc == 0x0101) = true := by decide
theorem test_ldR8N8 :
    goesTo (placed base (.ldR8N8 .a 0xFF) [])
      (fun t => t.a == 0xFF && t.pc == 0x0102) = true := by decide
theorem test_ldR8Ind :
    goesTo (placed { base with h := 0xC0, l := 0x00 } (.ldR8Ind .h) [(0xC000, 0x5A)])
      (fun t => t.h == 0x5A && t.l == 0x00) = true := by decide
theorem test_ldIndR8 :
    goesTo (placed { base with a := 0x77, h := 0xC0, l := 0x00 } (.ldIndR8 .a) [])
      (fun t => t.peek 0xC000 == some 0x77) = true := by decide
theorem test_ldIndN8 :
    goesTo (placed { base with h := 0xC0, l := 0x00 } (.ldIndN8 0x21) [])
      (fun t => t.peek 0xC000 == some 0x21 && t.pc == 0x0102) = true := by decide
theorem test_ldABc :
    goesTo (placed { base with b := 0xC1, c := 0x23 } .ldABc [(0xC123, 0x9C)])
      (fun t => t.a == 0x9C) = true := by decide
theorem test_ldADe :
    goesTo (placed { base with d := 0x80 } .ldADe [(0x8000, 0x01)])
      (fun t => t.a == 0x01) = true := by decide
theorem test_ldBcA :
    goesTo (placed { base with a := 0xAB, b := 0xC0 } .ldBcA [])
      (fun t => t.peek 0xC000 == some 0xAB) = true := by decide
theorem test_ldDeA :
    goesTo (placed { base with a := 0xCD, d := 0xC0, e := 0x01 } .ldDeA [])
      (fun t => t.peek 0xC001 == some 0xCD) = true := by decide
theorem test_ldAN16 :
    goesTo (placed base (.ldAN16 0x1234) [(0x1234, 0x42)])
      (fun t => t.a == 0x42 && t.pc == 0x0103) = true := by decide
theorem test_ldhAN8 :
    goesTo (placed base (.ldhAN8 0x0F) [])
      (fun t => t.a == 0xE0 && t.pc == 0x0102) = true := by decide
theorem test_ldhN8A :
    goesTo (placed { base with a := 0x01 } (.ldhN8A 0x4D) [])
      (fun t => t.key1Arm && t.peek 0xFF4D == some 0x7F) = true := by decide
theorem test_ldhAC :
    goesTo (placed { base with c := 0x44 } .ldhAC [(0xFF44, 0x90)])
      (fun t => t.a == 0x90) = true := by decide
theorem test_ldhCA :
    goesTo (placed { base with a := 0x3C, c := 0x80 } .ldhCA [])
      (fun t => t.peek 0xFF80 == some 0x3C) = true := by decide
theorem test_ldN16A :
    goesTo (placed { base with a := 0x99 } (.ldN16A 0xC000) [])
      (fun t => t.peek 0xC000 == some 0x99) = true := by decide
theorem test_ldAHli :
    goesTo (placed { base with h := 0xFF, l := 0xFF } .ldAHli [(0xFFFF, 0x11)])
      (fun t => t.a == 0x11 && t.hl == 0x0000) = true := by decide
theorem test_ldAHld :
    goesTo (placed { base with h := 0xC0, l := 0x01 } .ldAHld [(0xC001, 0x22)])
      (fun t => t.a == 0x22 && t.hl == 0xC000) = true := by decide
theorem test_ldHliA :
    goesTo (placed { base with a := 0x55, h := 0xC0, l := 0x00 } .ldHliA [])
      (fun t => t.peek 0xC000 == some 0x55 && t.hl == 0xC001) = true := by decide
theorem test_ldHldA :
    goesTo (placed { base with a := 0x66, h := 0xC0, l := 0x01 } .ldHldA [])
      (fun t => t.peek 0xC001 == some 0x66 && t.hl == 0xC000) = true := by decide
theorem test_rla :
    goesTo (placed { base with a := 0x95, f := 0x10 } .rla [])
      (fun t => t.a == 0x2B && t.f == 0x10) = true := by decide
theorem test_rlca :
    goesTo (placed { base with a := 0x85 } .rlca [])
      (fun t => t.a == 0x0B && t.f == 0x10) = true := by decide
theorem test_rra :
    goesTo (placed { base with a := 0x01 } .rra [])
      (fun t => t.a == 0x00 && t.f == 0x10) = true := by decide
theorem test_rrca :
    goesTo (placed { base with a := 0x3B } .rrca [])
      (fun t => t.a == 0x9D && t.f == 0x10) = true := by decide
theorem test_rlR8 :
    goesTo (placed { base with b := 0x80 } (.rlR8 .b) [])
      (fun t => t.b == 0x00 && t.f == 0x90) = true := by decide
theorem test_rlInd :
    goesTo (placed { base with h := 0xC0, l := 0x00 } .rlInd [(0xC000, 0x11)])
      (fun t => t.peek 0xC000 == some 0x22 && t.f == 0x00) = true := by decide
theorem test_rlcR8 :
    goesTo (placed { base with b := 0x85 } (.rlcR8 .b) [])
      (fun t => t.b == 0x0B && t.f == 0x10) = true := by decide
theorem test_rlcInd :
    goesTo (placed { base with h := 0xC0, l := 0x00 } .rlcInd [(0xC000, 0x00)])
      (fun t => t.peek 0xC000 == some 0x00 && t.f == 0x80) = true := by decide
theorem test_rrR8 :
    goesTo (placed { base with a := 0x01 } (.rrR8 .a) [])
      (fun t => t.a == 0x00 && t.f == 0x90) = true := by decide
theorem test_rrInd :
    goesTo (placed { base with h := 0xC0, l := 0x00 } .rrInd [(0xC000, 0x8A)])
      (fun t => t.peek 0xC000 == some 0x45 && t.f == 0x00) = true := by decide
theorem test_rrcR8 :
    goesTo (placed { base with c := 0x01 } (.rrcR8 .c) [])
      (fun t => t.c == 0x80 && t.f == 0x10) = true := by decide
theorem test_rrcInd :
    goesTo (placed { base with h := 0xC0, l := 0x00 } .rrcInd [(0xC000, 0x00)])
      (fun t => t.peek 0xC000 == some 0x00 && t.f == 0x80) = true := by decide
theorem test_slaR8 :
    goesTo (placed { base with d := 0xFF } (.slaR8 .d) [])
      (fun t => t.d == 0xFE && t.f == 0x10) = true := by decide
theorem test_slaInd :
    goesTo (placed { base with h := 0xC0, l := 0x00 } .slaInd [(0xC000, 0x40)])
      (fun t => t.peek 0xC000 == some 0x80 && t.f == 0x00) = true := by decide
theorem test_sraR8 :
    goesTo (placed { base with e := 0x8A } (.sraR8 .e) [])
      (fun t => t.e == 0xC5 && t.f == 0x00) = true := by decide
theorem test_sraInd :
    goesTo (placed { base with h := 0xC0, l := 0x00 } .sraInd [(0xC000, 0x01)])
      (fun t => t.peek 0xC000 == some 0x00 && t.f == 0x90) = true := by decide
theorem test_srlR8 :
    goesTo (placed { base with a := 0xFF } (.srlR8 .a) [])
      (fun t => t.a == 0x7F && t.f == 0x10) = true := by decide
theorem test_srlInd :
    goesTo (placed { base with h := 0xC0, l := 0x00 } .srlInd [(0xC000, 0x02)])
      (fun t => t.peek 0xC000 == some 0x01 && t.f == 0x00) = true := by decide
theorem test_swapR8 :
    goesTo (placed { base with a := 0xF1, f := 0x10 } (.swapR8 .a) [])
      (fun t => t.a == 0x1F && t.f == 0x00) = true := by decide
theorem test_swapInd :
    goesTo (placed { base with h := 0xC0, l := 0x00 } .swapInd [(0xC000, 0x00)])
      (fun t => t.peek 0xC000 == some 0x00 && t.f == 0x80) = true := by decide
theorem test_pushR16 :
    goesTo (placed { base with b := 0x12, c := 0x34, sp := 0xFFFE } (.pushR16 .bc) [])
      (fun t => t.peek 0xFFFD == some 0x12 && t.peek 0xFFFC == some 0x34 && t.sp == 0xFFFC) =
        true := by decide
theorem test_pushR16_wraps :
    goesTo (placed { base with b := 0x12, c := 0x34, sp := 0x0001 } (.pushR16 .bc) [])
      (fun t => t.peek 0x0000 == some 0x12 && t.ie == 0x34 && t.sp == 0xFFFF) = true := by decide
theorem test_popR16 :
    goesTo (placed { base with sp := 0xFFFC } (.popR16 .de) [(0xFFFC, 0x34), (0xFFFD, 0x12)])
      (fun t => t.de == 0x1234 && t.sp == 0xFFFE) = true := by decide
theorem test_pushAf :
    goesTo (placed { base with a := 0x12, f := 0xB0 } .pushAf [])
      (fun t => t.peek 0xCFFF == some 0x12 && t.peek 0xCFFE == some 0xB0 && t.sp == 0xCFFE) =
        true := by decide
theorem test_popAf :
    goesTo (placed { base with sp := 0xCFFE } .popAf [(0xCFFE, 0xFF)])
      (fun t => t.a == 0x00 && t.f == 0xF0 && t.sp == 0xD000) = true := by decide
theorem test_incR8 :
    goesTo (placed { base with b := 0x0F, f := 0x10 } (.incR8 .b) [])
      (fun t => t.b == 0x10 && t.f == 0x30) = true := by decide
theorem test_incInd :
    goesTo (placed { base with h := 0xC0, l := 0x00 } .incInd [(0xC000, 0xFF)])
      (fun t => t.peek 0xC000 == some 0x00 && t.f == 0xA0) = true := by decide
theorem test_decR8 :
    goesTo (placed { base with b := 0x01 } (.decR8 .b) [])
      (fun t => t.b == 0x00 && t.f == 0xC0) = true := by decide
theorem test_decInd :
    goesTo (placed { base with h := 0xC0, l := 0x00 } .decInd [(0xC000, 0x00)])
      (fun t => t.peek 0xC000 == some 0xFF && t.f == 0x60) = true := by decide
theorem test_incR16 :
    goesTo (placed { base with c := 0xFF, f := 0xF0 } (.incR16 .bc) [])
      (fun t => t.bc == 0x0100 && t.f == 0xF0) = true := by decide
theorem test_incSp :
    goesTo (placed { base with sp := 0xFFFF } .incSp [])
      (fun t => t.sp == 0x0000) = true := by decide
theorem test_decR16 :
    goesTo (placed base (.decR16 .hl) [])
      (fun t => t.hl == 0xFFFF && t.f == 0x00) = true := by decide
theorem test_decSp :
    goesTo (placed base .decSp [])
      (fun t => t.sp == 0xCFFF) = true := by decide
theorem test_addN8 :
    goesTo (placed { base with a := 0x3A } (.addN8 0xC6) [])
      (fun t => t.a == 0x00 && t.f == 0xB0) = true := by decide
theorem test_addR8 :
    goesTo (placed { base with a := 0x88 } (.addR8 .a) [])
      (fun t => t.a == 0x10 && t.f == 0x30) = true := by decide
theorem test_addInd :
    goesTo (placed { base with a := 0x3C, h := 0xC0, l := 0x00 } .addInd [(0xC000, 0x12)])
      (fun t => t.a == 0x4E && t.f == 0x00) = true := by decide
theorem test_adcN8 :
    goesTo (placed { base with a := 0xE1, f := 0x10 } (.adcN8 0x3B) [])
      (fun t => t.a == 0x1D && t.f == 0x10) = true := by decide
theorem test_adcR8 :
    goesTo (placed { base with a := 0xE1, e := 0x0F, f := 0x10 } (.adcR8 .e) [])
      (fun t => t.a == 0xF1 && t.f == 0x20) = true := by decide
theorem test_adcInd :
    goesTo (placed { base with a := 0xE1, f := 0x10, h := 0xC0, l := 0x00 } .adcInd [(0xC000,
        0x1E)])
      (fun t => t.a == 0x00 && t.f == 0xB0) = true := by decide
theorem test_subN8 :
    goesTo (placed { base with a := 0x3E } (.subN8 0x0F) [])
      (fun t => t.a == 0x2F && t.f == 0x60) = true := by decide
theorem test_subR8 :
    goesTo (placed { base with a := 0x3E, e := 0x3E } (.subR8 .e) [])
      (fun t => t.a == 0x00 && t.f == 0xC0) = true := by decide
theorem test_subInd :
    goesTo (placed { base with a := 0x3E, h := 0xC0, l := 0x00 } .subInd [(0xC000, 0x40)])
      (fun t => t.a == 0xFE && t.f == 0x50) = true := by decide
theorem test_sbcN8 :
    goesTo (placed { base with a := 0x3B, f := 0x10 } (.sbcN8 0x3A) [])
      (fun t => t.a == 0x00 && t.f == 0xC0) = true := by decide
theorem test_sbcR8 :
    goesTo (placed { base with a := 0x3B, h := 0x2A, f := 0x10 } (.sbcR8 .h) [])
      (fun t => t.a == 0x10 && t.f == 0x40) = true := by decide
theorem test_sbcInd :
    goesTo (placed { base with a := 0x3B, f := 0x10, h := 0xC0, l := 0x00 } .sbcInd [(0xC000,
        0x4F)])
      (fun t => t.a == 0xEB && t.f == 0x70) = true := by decide
theorem test_cpN8 :
    goesTo (placed { base with a := 0x3C } (.cpN8 0x3C) [])
      (fun t => t.a == 0x3C && t.f == 0xC0) = true := by decide
theorem test_cpR8 :
    goesTo (placed { base with a := 0x3C, b := 0x2F } (.cpR8 .b) [])
      (fun t => t.a == 0x3C && t.f == 0x60) = true := by decide
theorem test_cpInd :
    goesTo (placed { base with a := 0x3C, h := 0xC0, l := 0x00 } .cpInd [(0xC000, 0x40)])
      (fun t => t.a == 0x3C && t.f == 0x50) = true := by decide
theorem test_andN8 :
    goesTo (placed { base with a := 0x5A } (.andN8 0x3F) [])
      (fun t => t.a == 0x1A && t.f == 0x20) = true := by decide
theorem test_andR8 :
    goesTo (placed { base with a := 0x5A, l := 0xA5 } (.andR8 .l) [])
      (fun t => t.a == 0x00 && t.f == 0xA0) = true := by decide
theorem test_andInd :
    goesTo (placed { base with a := 0x5A, h := 0xC0, l := 0x00 } .andInd [(0xC000, 0xF0)])
      (fun t => t.a == 0x50 && t.f == 0x20) = true := by decide
theorem test_orN8 :
    goesTo (placed { base with a := 0x5A } (.orN8 0x03) [])
      (fun t => t.a == 0x5B && t.f == 0x00) = true := by decide
theorem test_orR8 :
    goesTo (placed { base with f := 0x70 } (.orR8 .a) [])
      (fun t => t.a == 0x00 && t.f == 0x80) = true := by decide
theorem test_orInd :
    goesTo (placed { base with a := 0x5A, h := 0xC0, l := 0x00 } .orInd [(0xC000, 0x0F)])
      (fun t => t.a == 0x5F && t.f == 0x00) = true := by decide
theorem test_xorN8 :
    goesTo (placed { base with a := 0xFF } (.xorN8 0x0F) [])
      (fun t => t.a == 0xF0 && t.f == 0x00) = true := by decide
theorem test_xorR8 :
    goesTo (placed { base with a := 0xFF } (.xorR8 .a) [])
      (fun t => t.a == 0x00 && t.f == 0x80) = true := by decide
theorem test_xorInd :
    goesTo (placed { base with a := 0xFF, h := 0xC0, l := 0x00 } .xorInd [(0xC000, 0x8A)])
      (fun t => t.a == 0x75 && t.f == 0x00) = true := by decide
theorem test_cpl :
    goesTo (placed { base with a := 0x35, f := 0x80 } .cpl [])
      (fun t => t.a == 0xCA && t.f == 0xE0) = true := by decide
theorem test_bitR8 :
    goesTo (placed { base with h := 0x7F } (.bitR8 7 .h) [])
      (fun t => t.h == 0x7F && t.f == 0xA0) = true := by decide
theorem test_bitInd :
    goesTo (placed { base with h := 0xC0, l := 0x00 } (.bitInd 0) [(0xC000, 0xFE)])
      (fun t => t.f == 0xA0 && t.peek 0xC000 == some 0xFE) = true := by decide
theorem test_resR8 :
    goesTo (placed { base with a := 0xFF } (.resR8 7 .a) [])
      (fun t => t.a == 0x7F && t.f == 0x00) = true := by decide
theorem test_resInd :
    goesTo (placed { base with h := 0xC0, l := 0x00 } (.resInd 0) [(0xC000, 0xFF)])
      (fun t => t.peek 0xC000 == some 0xFE) = true := by decide
theorem test_setR8 :
    goesTo (placed base (.setR8 3 .b) [])
      (fun t => t.b == 0x08 && t.f == 0x00) = true := by decide
theorem test_setInd :
    goesTo (placed { base with h := 0xC0, l := 0x00 } (.setInd 7) [])
      (fun t => t.peek 0xC000 == some 0x80) = true := by decide
theorem test_scf :
    goesTo (placed { base with f := 0xE0 } .scf [])
      (fun t => t.f == 0x90) = true := by decide
theorem test_ccf :
    goesTo (placed { base with f := 0x90 } .ccf [])
      (fun t => t.f == 0x80) = true := by decide
theorem test_ldR16N16 :
    goesTo (placed base (.ldR16N16 .hl 0xC000) [])
      (fun t => t.h == 0xC0 && t.l == 0x00 && t.pc == 0x0103) = true := by decide
theorem test_ldSpN16 :
    goesTo (placed base (.ldSpN16 0xFFFE) [])
      (fun t => t.sp == 0xFFFE) = true := by decide
theorem test_ldN16Sp :
    goesTo (placed { base with sp := 0xFFF8 } (.ldN16Sp 0xC100) [])
      (fun t => t.peek 0xC100 == some 0xF8 && t.peek 0xC101 == some 0xFF) = true := by decide
theorem test_ldSpHl :
    goesTo (placed { base with h := 0xD0 } .ldSpHl [])
      (fun t => t.sp == 0xD000) = true := by decide
theorem test_ldHlSpE8 :
    goesTo (placed { base with sp := 0xFFF8 } (.ldHlSpE8 0x02) [])
      (fun t => t.hl == 0xFFFA && t.f == 0x00 && t.sp == 0xFFF8) = true := by decide
theorem test_addHlR16 :
    goesTo (placed { base with h := 0x8A, l := 0x23, b := 0x06, c := 0x05 } (.addHlR16 .bc) [])
      (fun t => t.hl == 0x9028 && t.f == 0x20) = true := by decide
theorem test_addHlSp :
    goesTo (placed { base with sp := 0xFFFE } .addHlSp [])
      (fun t => t.hl == 0xFFFE && t.f == 0x00) = true := by decide
theorem test_addSpE8 :
    goesTo (placed { base with sp := 0x0001 } (.addSpE8 0xFF) [])
      (fun t => t.sp == 0x0000 && t.f == 0x30) = true := by decide
theorem test_jp :
    goesTo (placed base (.jp 0x0150) [])
      (fun t => t.pc == 0x0150) = true := by decide
theorem test_jpCc :
    goesTo (placed { base with f := 0x80 } (.jpCc .z 0x8000) [])
      (fun t => t.pc == 0x8000) = true := by decide
theorem test_jpCc_not_taken :
    goesTo (placed base (.jpCc .z 0x8000) [])
      (fun t => t.pc == 0x0103) = true := by decide
theorem test_jr :
    goesTo (placed { base with pc := 0x0105 } (.jr 0xF9) [])
      (fun t => t.pc == 0x0100) = true := by decide
theorem test_jr_wraps :
    goesTo (placed { base with pc := 0xFFF0 } (.jr 0x20) [])
      (fun t => t.pc == 0x0012) = true := by decide
theorem test_jrCc :
    goesTo (placed { base with pc := 0x0103 } (.jrCc .nz 0xFB) [])
      (fun t => t.pc == 0x0100) = true := by decide
theorem test_jrCc_not_taken :
    goesTo (placed { base with pc := 0x0103, f := 0x80 } (.jrCc .nz 0xFB) [])
      (fun t => t.pc == 0x0105) = true := by decide
theorem test_jpHl :
    goesTo (placed { base with h := 0x40 } .jpHl [])
      (fun t => t.pc == 0x4000) = true := by decide
theorem test_call :
    goesTo (placed { base with sp := 0xFFFE } (.call 0x1234) [])
      (fun t => t.peek 0xFFFD == some 0x01 && t.peek 0xFFFC == some 0x03 && t.sp == 0xFFFC &&
        t.pc == 0x1234) = true := by decide
theorem test_callCc :
    goesTo (placed { base with f := 0x10 } (.callCc .c 0x2000) [])
      (fun t => t.pc == 0x2000 && t.peek 0xCFFE == some 0x03) = true := by decide
theorem test_callCc_not_taken :
    goesTo (placed base (.callCc .c 0x2000) [])
      (fun t => t.pc == 0x0103 && t.sp == 0xD000) = true := by decide
theorem test_rst :
    goesTo (placed { base with pc := 0x0200 } (.rst 5) [])
      (fun t => t.peek 0xCFFF == some 0x02 && t.peek 0xCFFE == some 0x01 && t.pc == 0x0028) =
        true := by decide
theorem test_ret :
    goesTo (placed { base with sp := 0xFFFC } .ret [(0xFFFC, 0x03), (0xFFFD, 0x01)])
      (fun t => t.pc == 0x0103 && t.sp == 0xFFFE) = true := by decide
theorem test_retCc :
    goesTo (placed { base with sp := 0xCFFE, f := 0x80 } (.retCc .z) [(0xCFFE, 0x34), (0xCFFF,
        0x12)])
      (fun t => t.pc == 0x1234 && t.sp == 0xD000) = true := by decide
theorem test_retCc_not_taken :
    goesTo (placed { base with pc := 0x1240 } (.retCc .z) [])
      (fun t => t.pc == 0x1241 && t.sp == 0xD000) = true := by decide
theorem test_reti :
    goesTo (placed { base with sp := 0xCFFE } .reti [(0xCFFE, 0x34), (0xCFFF, 0x12)])
      (fun t => t.pc == 0x1234 && t.sp == 0xD000 && t.ime) = true := by decide
theorem test_daa :
    goesTo (placed { base with a := 0x7D } .daa [])
      (fun t => t.a == 0x83 && t.f == 0x00) = true := by decide
theorem test_daa_after_sub :
    goesTo (placed { base with a := 0x4B, f := 0x60 } .daa [])
      (fun t => t.a == 0x45 && t.f == 0x40) = true := by decide
theorem test_di :
    goesTo (placed { base with ime := true } .di [])
      (fun t => !t.ime && !t.imePending) = true := by decide
theorem test_ei :
    goesTo (placed base .ei [])
      (fun t => !t.ime && t.imePending) = true := by decide
theorem test_halt :
    goesTo (placed { base with pc := 0x0200, ime := true, ie := 0x04 } .halt [])
      (fun t => t.halted && t.pc == 0x0201) = true := by decide
theorem test_halt_double_read :
    goesTo (placed { base with ie := 0x01, ifReg := 0xE1 } .halt [])
      (fun t => t.haltBug && !t.halted && t.pc == 0x0101) = true := by decide
theorem test_stop_speed_switch :
    goesTo (placed { base with pc := 0x0150, key1Arm := true } (.stop 0x00) [])
      (fun t => t.doubleSpeed && !t.key1Arm && t.pc == 0x0152 && !t.stopped) = true := by decide
theorem test_stop :
    goesTo (placed base (.stop 0x00) [])
      (fun t => t.stopped && t.pc == 0x0102) = true := by decide
theorem test_nop :
    goesTo (placed base .nop [])
      (fun t => t.pc == 0x0101) = true := by decide

/-! ## Stops -/

/-- An unassigned byte faults with its value and its address (R310). -/
theorem test_illegal_faults :
    (match step (placed base .illegalD3 []) with
      | .fault (.illegalOpcode b a) => b == 0xD3 && a == 0x0100
      | _ => false) = true := by decide
theorem test_stop_operand_refused :
    (match step (placed base (.stop 0x01) []) with
      | .refused r => r == .stopOperand
      | _ => false) = true := by decide
theorem test_stop_on_dmg_refused :
    (match step (placed { base with platform := ⟨.dmg, resetRam⟩ } (.stop 0x00) []) with
      | .refused r => r == .stopOnDmg
      | _ => false) = true := by decide
theorem test_ei_halt_pending_refused :
    (match step (placed { base with imePending := true, ie := 0x01, ifReg := 0xE1 } .halt []) with
      | .refused r => r == .eiHaltPending
      | _ => false) = true := by decide

/-! ## The step -/

/-- The interrupt of 49_misc.md R296's example: halted with IME = 1, the environment sets IF bit 2. -/
theorem test_interrupt_ends_halt :
    goesTo { base with pc := 0x0201, ime := true, halted := true, ie := 0x04, env := [⟨0b00100, false⟩] }
      (fun t => !t.halted && t.pc == 0x0050 && !t.ime && t.ifReg == 0xE0 &&
        t.peek 0xCFFF == some 0x02 && t.peek 0xCFFE == some 0x01) = true := by decide
/-- EI's delay (R294's example): after the NOP that follows EI, IME = 1. -/
theorem test_ei_delay :
    goesTo (placed { base with imePending := true } .nop []) (fun t => t.ime && !t.imePending) = true := by
  decide
/-- `76 3C` executes INC A twice (R296 (a)): the first time PC stays. -/
theorem test_double_read_inc_a :
    goesTo (placed { base with pc := 0x0101, haltBug := true } (.incR8 .a) [])
      (fun t => t.a == 0x01 && t.pc == 0x0101 && !t.haltBug) = true := by decide
/-- `76 06 04` executes LD B,$06 (R296 (a)), and INC B is next. -/
theorem test_double_read_ld_b :
    goesTo (placed { base with pc := 0x0101, haltBug := true } (.ldR8N8 .b 0x04) [])
      (fun t => t.b == 0x06 && t.pc == 0x0102 && !t.haltBug) = true := by decide
/-- What the host asks of withFetchWord: the next step runs the instruction. -/
theorem test_withFetchWord :
    goesTo (State.reset.withFetchWord 16 0xFF3E) (fun t => t.a == 0xFF && t.pc == 0x0102) = true := by
  decide
/-- An assembler's spellings and offsets (R98, R105). -/
theorem test_spelling :
    (Instr.ldAHli.spelling 0x0100 == some "LD A, [HL+]" &&
      (Instr.rst 5).spelling 0x0100 == some "RST $28" &&
      (Instr.stop 0x01).spelling 0x0100 == none &&
      jrOffset 0x0105 0x0100 == some 0xF9 && jrOffset 0x0100 0x0200 == none) = true := by decide

/-! ## Witnesses: states that meet the hypotheses of the statements, each clause at its boundaries -/

theorem goesTo_next {s : State} {p : State → Bool} (h : goesTo s p = true) :
    ∃ t, step s = .next t ∧ p t = true := by
  unfold goesTo at h
  split at h
  · next t ht => exact ⟨t, ht, h⟩
  · cases h

theorem witness_EncodeOfDecode :
    decode [0xC3, 0x50, 0x01, 0x99] = .ok (.jp 0x0150, [0x99]) ∧ decode [0x00] = .ok (.nop, []) :=
  ⟨rfl, rfl⟩

theorem witness_AssemblerTargets :
    jrOffset 0x0100 0x0181 = some 0x7F ∧ jrOffset 0x0100 0x0082 = some 0x80 ∧
    jrOffset 0x0100 0x0182 = none ∧ jrOffset 0x0100 0x0081 = none ∧
    rstField 0x0038 = some 7 ∧ rstField 0x0040 = none := by decide

/-- No plain memory at all: every address but IE, IF and KEY1 is the environment's. -/
def bare : State := { base with platform := ⟨.cgb, []⟩ }

theorem witness_BusReadAfterWrite :
    base.peek 0x0000 = some 0x00 ∧ base.peek 0xFFFE = some 0x00 ∧ base.peek 0xFFFF = some 0x00 ∧
    base.peek 0xFF0F = some 0xE0 ∧ base.peek 0xFF4D = some 0x7E ∧ bare.peek 0x0000 = none ∧
    bare.peek 0xFFFE = none ∧ bare.peek 0xFF4D = some 0x7E := by decide

theorem witness_WordsAreLittleEndian :
    (base.peek 0xC000 = some 0x00 ∧ base.peek (0xC000 + 1) = some 0x00) ∧
    (base.peek 0xFFFF = some 0x00 ∧ base.peek (0xFFFF + 1) = some 0x00) := by decide

theorem witness_PopReturnsPushed :
    (base.isPlain (base.sp - 1) = true ∧ base.isPlain (base.sp - 2) = true) ∧
    (base.setSp 0x0002).isPlain ((base.setSp 0x0002).sp - 2) = true ∧
    (base.setSp 0xFFFF).isPlain ((base.setSp 0xFFFF).sp - 1) = true ∧
    (base.setSp 0x0001).isPlain ((base.setSp 0x0001).sp - 2) = false := by decide

theorem witness_DaaIsDecimal :
    ((base.setReg8 .a 0x99).a.toNat = bcd 99 ∧ (0x01 : Byte).toNat = bcd 1) ∧
    (base.a.toNat = bcd 0 ∧ (0x99 : Byte).toNat = bcd 99) := by decide

/-- A request of source 0 enabled and pending. -/
def pendingBase : State := { base with ie := 0x01, ifReg := 0xE1 }

theorem witness_HaltCases :
    (({ pendingBase with imePending := true } : State).pending ≠ 0) ∧
    (pendingBase.imePending = false ∧ pendingBase.ime = false ∧ pendingBase.pending ≠ 0) ∧
    (({ pendingBase with ime := true } : State).imePending = false ∧
      ({ pendingBase with ime := true } : State).ime = true) ∧
    base.pending = 0 ∧ ({ base with imePending := true } : State).pending = 0 := by decide

theorem witness_StopCases :
    ((0x01 : Byte) ≠ 0 ∧ (0xFF : Byte) ≠ 0) ∧
    ({ base with platform := ⟨.dmg, resetRam⟩ } : State).platform.model = .dmg ∧
    (base.platform.model = .cgb ∧ ({ base with key1Arm := true } : State).key1Arm = true) ∧
    base.key1Arm = false := by decide

theorem witness_UnassignedBytesFault :
    Instr.illegalD3.unassigned? = some 0xD3 ∧ Instr.illegalDB.unassigned? = some 0xDB ∧
    Instr.illegalDD.unassigned? = some 0xDD ∧ Instr.illegalE3.unassigned? = some 0xE3 ∧
    Instr.illegalE4.unassigned? = some 0xE4 ∧ Instr.illegalEB.unassigned? = some 0xEB ∧
    Instr.illegalEC.unassigned? = some 0xEC ∧ Instr.illegalED.unassigned? = some 0xED ∧
    Instr.illegalF4.unassigned? = some 0xF4 ∧ Instr.illegalFC.unassigned? = some 0xFC ∧
    Instr.illegalFD.unassigned? = some 0xFD := by decide

theorem witness_FlagTable :
    (∃ t, exec .popAf base = .next t) ∧ (∃ t, exec .daa base = .next t) ∧
    (∃ t, exec .cpl base = .next t) := ⟨⟨_, rfl⟩, ⟨_, rfl⟩, ⟨_, rfl⟩⟩

theorem witness_OnlyListedBytesChange :
    (∃ t, exec (.call 0x1234) base = .next t) ∧ (0xD000 : Addr) ∉ storesTo (.call 0x1234) base ∧
    (0xCFFD : Addr) ∉ storesTo (.call 0x1234) base := ⟨⟨_, rfl⟩, by decide, by decide⟩

theorem witness_OnlyListedRegistersChange :
    (∃ t, exec .nop base = .next t) ∧ assignsPc .nop = false ∧ writesSp .nop = false ∧
    isControl .nop = false ∧ (∃ t, exec .di base = .next t) ∧ assignsPc .di = false :=
  ⟨⟨_, rfl⟩, rfl, rfl, rfl, ⟨_, rfl⟩, rfl⟩

theorem witness_ResetInvariant : State.reset.Inv :=
  ⟨by decide, (by intro x hx; cases hx), by decide, by decide, by decide, by decide, by decide⟩

/-- A state with bytes in memory. -/
def filled : State := withBytes base [(0xC000, 0x5A), (0x0100, 0x3C)]

theorem witness_StepKeepsInvariant : filled.Inv ∧ ∃ t, step filled = .next t ∧ (t.a == 0x01) = true :=
  ⟨⟨by decide, by decide, by decide, by decide, by decide, by decide, by decide⟩,
    goesTo_next (by decide)⟩

theorem witness_EnvironmentMoves :
    ∃ t, step { base with env := [⟨0b11111, true⟩] } = .next t ∧ (t.ifReg == 0xFF) = true :=
  goesTo_next (by decide)

theorem witness_WhenAnInstructionRuns :
    base.runs ∧ ({ base with stopped := true, env := [⟨0, true⟩] } : State).runs ∧
    ({ pendingBase with halted := true } : State).runs :=
  ⟨⟨by decide, by decide, by decide⟩, ⟨by decide, by decide, by decide⟩,
    ⟨by decide, by decide, by decide⟩⟩

/-- LD BC,$1234 at $0100. -/
def threeBytes : State := withBytes base [(0x0100, 0x01), (0x0101, 0x34), (0x0102, 0x12)]

theorem witness_StepRunsDecodedInstruction :
    threeBytes.runs ∧
    (State.fetchMany (encode (.ldR16N16 .bc 0x1234)).length threeBytes.awake).1 =
      encode (.ldR16N16 .bc 0x1234) ∧
    (State.fetchMany (encode .nop).length base.awake).1 = encode .nop :=
  ⟨⟨by decide, by decide, by decide⟩, by decide, by decide⟩

/-- After a HALT that did not wait, with the bytes `b0`, `b1` at PC. -/
def doubled (b0 b1 : Byte) : State :=
  withBytes { base with haltBug := true } [(0x0100, b0), (0x0101, b1)]

theorem witness_HaltDoubleRead :
    (doubled 0x3C 0x00).runs ∧ (doubled 0x3C 0x00).haltBug = true ∧
    (doubled 0x3C 0x00).awake.peek 0x0100 = some 0x3C ∧
    (doubled 0x06 0x04).awake.peek 0x0101 = some 0x04 ∧
    instrLength 0x3C = 1 ∧ instrLength 0x06 = 2 ∧ instrLength 0x01 = 3 ∧
    (∃ t, step (doubled 0x3C 0x00) = .next t ∧ (t.pc == 0x0100) = true) ∧
    (∃ t, step (doubled 0x01 0x04) = .next t ∧ (t.bc == 0x0401 && t.pc == 0x0102) = true) :=
  ⟨⟨by decide, by decide, by decide⟩, by decide, by decide, by decide, by decide, by decide, by decide,
    goesTo_next (by decide), goesTo_next (by decide)⟩

/-- All five requests enabled, IME = 1. -/
def enabled (request : Byte) : State := { base with ime := true, ie := 0xFF, ifReg := request }

theorem witness_InterruptEntry :
    ((enabled 0xFF).ime = true ∧ (enabled 0xFF).afterEnv.pending.getLsbD IrqSource.vblank.bit = true) ∧
    ((enabled 0xF0).afterEnv.pending.getLsbD IrqSource.joypad.bit = true ∧
      ∀ k < IrqSource.joypad.bit, (enabled 0xF0).afterEnv.pending.getLsbD k = false) ∧
    (({ enabled 0xFF with stopped := true, env := [⟨0, true⟩] } : State).envMove.button = true) := by
  decide

theorem witness_PendingRequests :
    (1 : BitVec 5) ≠ 0 ∧ lowestPending 1 = some .vblank ∧ lowestPending 16 = some .joypad ∧
    lowestPending 31 = some .vblank := by decide

theorem witness_WaitsGoOn :
    (({ base with stopped := true } : State).envMove.button = false) ∧
    (({ base with halted := true } : State).afterEnv.pending = 0 ∧
      ({ base with halted := true } : State).stopped = false) ∧
    (({ base with stopped := true, halted := true, env := [⟨0, true⟩] } : State).envMove.button = true ∧
      ({ base with stopped := true, halted := true, env := [⟨0, true⟩] } : State).afterEnv.pending = 0) :=
  by decide

theorem witness_EiDelay :
    (∃ t, step { pendingBase with imePending := true } = .next t ∧ t.ime = true) ∧
    (∃ t, step (withBytes { base with imePending := true } [(0x0100, 0xF3)]) = .next t ∧
      (!t.ime) = true) :=
  ⟨goesTo_next (by decide), goesTo_next (by decide)⟩

theorem witness_ImeRisesOnlyByRetiOrEi :
    (∃ t, step (withBytes base [(0x0100, 0xD9)]) = .next t ∧ t.ime = true) ∧
    (∃ t, step { base with imePending := true } = .next t ∧ t.ime = true) :=
  ⟨goesTo_next (by decide), goesTo_next (by decide)⟩

theorem witness_OnlyListedStops :
    step (placed base .illegalFD []) = .fault (.illegalOpcode 0xFD 0x0100) ∧
    step (placed { pendingBase with imePending := true } .halt []) = .refused .eiHaltPending ∧
    step (placed base (.stop 0xFF) []) = .refused .stopOperand ∧
    step (placed { base with platform := ⟨.dmg, resetRam⟩ } (.stop 0x00) []) = .refused .stopOnDmg :=
  ⟨rfl, rfl, rfl, rfl⟩


end Sys2Proof.Tests
end

section
/-! SUPPORT. What an instruction does to PC, SP, the hidden bits and the parameters (10_state.md R23,
R24, R30 to R34), read off its body: the operations over registers, flags and the bus leave all of them,
so that only the fetches, SP's writers, the jumps and the control instructions are seen. -/

namespace Sys2Proof.Machine

/-! ## The part of the state that is neither a register of data nor a byte -/

/-- PC, SP, the hidden bits and the parameters: what an instruction on data does not touch but by its
fetches. -/
structure Flow where
  pc : Word
  sp : Word
  ime : Bool
  imePending : Bool
  halted : Bool
  haltBug : Bool
  stopped : Bool
  doubleSpeed : Bool
  platform : Platform
  env : List EnvMove

/-- A state's flow. -/
def State.flow (s : State) : Flow :=
  ⟨s.pc, s.sp, s.ime, s.imePending, s.halted, s.haltBug, s.stopped, s.doubleSpeed, s.platform, s.env⟩

@[simp] theorem setReg8_flow (s : State) (r : Reg8) (v : Byte) : (s.setReg8 r v).flow = s.flow := by
  cases r <;> rfl

@[simp] theorem setReg16_flow (s : State) (p : Reg16) (w : Word) : (s.setReg16 p w).flow = s.flow := by
  cases p <;> rfl

@[simp] theorem setFlags_flow (s : State) (z n h c : Bool) : (s.setFlags z n h c).flow = s.flow := rfl

@[simp] theorem setAf_flow (s : State) (w : Word) : (s.setAf w).flow = s.flow := rfl

@[simp] theorem afterRead_flow (s : State) (a : Addr) : (s.afterRead a).flow = s.flow := by
  rw [afterRead_eq]; rfl

@[simp] theorem writeByte_flow (s : State) (a : Addr) (v : Byte) : (s.writeByte a v).flow = s.flow := by
  rw [writeByte_eq]; rfl

@[simp] theorem writeWord_flow (s : State) (a : Addr) (w : Word) : (s.writeWord a w).flow = s.flow := by
  simp [State.writeWord]

@[simp] theorem afterSrc8_flow (s : State) (x : Src8) : (s.afterSrc8 x).flow = s.flow := by
  cases x <;> simp

@[simp] theorem afterReadPlace_flow (s : State) (p : Place8) : (s.afterReadPlace p).flow = s.flow := by
  cases p <;> simp

@[simp] theorem writePlace_flow (s : State) (p : Place8) (v : Byte) :
    (s.writePlace p v).flow = s.flow := by
  cases p <;> simp

@[simp] theorem setSp_flow (s : State) (w : Word) : (s.setSp w).flow = { s.flow with sp := w } := rfl

@[simp] theorem setPc_flow (s : State) (w : Addr) : (s.setPc w).flow = { s.flow with pc := w } := rfl

@[simp] theorem push16_flow (s : State) (w : Word) :
    (s.push16 w).flow = { s.flow with sp := s.sp - 2 } := by
  simp [push16_eq]

@[simp] theorem afterPop_flow (s : State) : s.afterPop.flow = { s.flow with sp := s.sp + 2 } := by
  simp [afterPop_eq]

/-! ## Bodies that only fetch -/

/-- The instruction went past its `n` bytes and did nothing else to the flow. -/
def Straight (n : Nat) (s t : State) : Prop := t.flow = (s.advance n).flow

section Bodies

variable {n : Nat} {s t : State}

theorem loadA_straight {a : Addr} (h : loadA n a s = .next t) : Straight n s t := by
  cases h; simp [Straight]

theorem storeA_straight {a : Addr} (h : storeA n a s = .next t) : Straight n s t := by
  cases h; simp [Straight]

theorem aluA_straight {src : Src8} {sub : Bool} {f : Byte → Byte → Bool → Result8}
    (h : aluA n src sub f s = .next t) : Straight n s t := by
  cases h; simp [Straight]

theorem compareA_straight {src : Src8} (h : compareA n src s = .next t) : Straight n s t := by
  cases h; simp [Straight]

theorem logicA_straight {src : Src8} {half : Bool} {f : Byte → Byte → Byte}
    (h : logicA n src half f s = .next t) : Straight n s t := by
  cases h; simp [Straight]

theorem shiftPlace_straight {op : ShiftOp} {p : Place8} (h : shiftPlace op p s = .next t) :
    Straight 2 s t := by
  cases h; simp [Straight]

theorem rotateA_straight {op : ShiftOp} (h : rotateA op s = .next t) : Straight 1 s t := by
  cases h; simp [Straight]

theorem incPlace_straight {p : Place8} (h : incPlace p s = .next t) : Straight 1 s t := by
  cases h; simp [Straight]

theorem decPlace_straight {p : Place8} (h : decPlace p s = .next t) : Straight 1 s t := by
  cases h; simp [Straight]

theorem testBit_straight {u : BitVec 3} {p : Place8} (h : testBit u p s = .next t) :
    Straight 2 s t := by
  cases h; simp [Straight]

theorem clearBit_straight {u : BitVec 3} {p : Place8} (h : clearBit u p s = .next t) :
    Straight 2 s t := by
  cases h; simp [Straight]

theorem setBit_straight {u : BitVec 3} {p : Place8} (h : setBit u p s = .next t) :
    Straight 2 s t := by
  cases h; simp [Straight]

theorem addHl_straight {w : State → Word} (h : addHl w s = .next t) : Straight 1 s t := by
  cases h; simp [Straight]

/-! ## Bodies that assign PC -/

/-- A jump, taken or not, leaves all of the flow but PC as its fetches do. -/
theorem jumpTo_flow {taken : State → Bool} {target : State → Word}
    (h : jumpTo n taken target s = .next t) : t.flow = { (s.advance n).flow with pc := t.pc } := by
  cases h
  split <;> rfl

theorem jumpRelative_flow {taken : State → Bool} {e : Byte} (h : jumpRelative taken e s = .next t) :
    t.flow = { (s.advance 2).flow with pc := t.pc } := jumpTo_flow h

/-- A call, taken or not, leaves all of the flow but PC and SP as its fetches do. -/
theorem callTo_flow {taken : State → Bool} {target : Word} (h : callTo n taken target s = .next t) :
    t.flow = { (s.advance n).flow with pc := t.pc, sp := t.sp } := by
  cases h
  split
  · simp
  · rfl

/-- A return, taken or not, leaves all of the flow but PC and SP as its fetch does. -/
theorem returnIf_flow {taken : State → Bool} (h : returnIf taken s = .next t) :
    t.flow = { (s.advance 1).flow with pc := t.pc, sp := t.sp } := by
  cases h
  split
  · simp
  · rfl

end Bodies

/-! ## The listed writers -/

/-- `i`, going on from `s` to `t`, changed PC, SP, the hidden bits and the parameters only as the spec
lists it among their writers. -/
structure OnlyListed (i : Instr) (s t : State) : Prop where
  pc : assignsPc i = false → t.pc = nextPc i.size s
  sp : writesSp i = false → t.sp = s.sp
  control : isControl i = false → ControlKept s t ∧ t.haltBug = false
  platform : t.platform = s.platform
  env : t.env = s.env

namespace OnlyListed

variable {i : Instr} {s t : State}

/-- An instruction that moves past its bytes, and writes PC or SP only where it is listed to. -/
theorem of_flow {a w : Word} (h : t.flow = { (s.advance i.size).flow with pc := a, sp := w })
    (hpc : assignsPc i = false → a = nextPc i.size s) (hsp : writesSp i = false → w = s.sp) :
    OnlyListed i s t := by
  simp only [State.flow, Flow.mk.injEq, advance_ime, advance_imePending, advance_halted,
    advance_haltBug, advance_stopped, advance_doubleSpeed, advance_platform, advance_env] at h
  obtain ⟨rfl, rfl, hime, hpending, hhalted, hbug, hstopped, hspeed, hplatform, henv⟩ := h
  exact ⟨hpc, hsp, fun _ => ⟨⟨hime, hpending, hhalted, hstopped, hspeed, hplatform, henv⟩, hbug⟩,
    hplatform, henv⟩

theorem of_straight (h : Straight i.size s t) : OnlyListed i s t :=
  of_flow h (fun _ => codeAddr_eq s i.size) (fun _ => rfl)

theorem of_writesSp (hw : writesSp i = true)
    (h : t.flow = { (s.advance i.size).flow with sp := t.sp }) : OnlyListed i s t :=
  of_flow h (fun _ => codeAddr_eq s i.size) (by simp [hw])

theorem of_assignsPc (hp : assignsPc i = true)
    (h : t.flow = { (s.advance i.size).flow with pc := t.pc }) : OnlyListed i s t :=
  of_flow h (by simp [hp]) (fun _ => rfl)

theorem of_assignsPc_writesSp (hp : assignsPc i = true) (hw : writesSp i = true)
    (h : t.flow = { (s.advance i.size).flow with pc := t.pc, sp := t.sp }) : OnlyListed i s t :=
  of_flow h (by simp [hp]) (by simp [hw])

/-- A control instruction may write the hidden bits. -/
theorem of_isControl (hc : isControl i = true) (hpc : assignsPc i = false → t.pc = s.codeAddr i.size)
    (hsp : writesSp i = false → t.sp = s.sp) (hplatform : t.platform = s.platform)
    (henv : t.env = s.env) : OnlyListed i s t :=
  ⟨fun h => (hpc h).trans (codeAddr_eq s i.size), hsp, by simp [hc], hplatform, henv⟩

theorem reti (h : execReti s = .next t) : OnlyListed .reti s t := by
  cases h
  exact of_isControl rfl nofun nofun (by simp) (by simp)

/-- HALT goes on in two ways: with a double read left, or halted (R296). -/
theorem halt (h : execHalt s = .next t) : OnlyListed .halt s t := by
  simp only [execHalt] at h
  split at h
  · cases h
  · split at h <;> cases h <;> exact of_isControl rfl (fun _ => rfl) (fun _ => rfl) rfl rfl

/-- STOP goes on in two ways: with the speed switched, or stopped (R298). -/
theorem stop {b : Byte} (h : execStop b s = .next t) : OnlyListed (.stop b) s t := by
  simp only [execStop] at h
  split at h
  · cases h
  · split at h
    · cases h
    · split at h <;> cases h <;> exact of_isControl rfl (fun _ => rfl) (fun _ => rfl) rfl rfl

end OnlyListed

/-- Every instruction that goes on changes PC, SP, the hidden bits and the parameters only as listed: a
case for each of the shared bodies, and one for the instructions that have a body of their own. -/
theorem exec_onlyListed {i : Instr} {s t : State} (h : exec i s = .next t) : OnlyListed i s t := by
  unfold exec at h
  cases i with
  | ldABc | ldADe | ldAN16 | ldhAN8 | ldhAC => exact .of_straight (loadA_straight h)
  | ldBcA | ldDeA | ldN16A | ldhN8A | ldhCA => exact .of_straight (storeA_straight h)
  | addR8 | addInd | addN8 | adcR8 | adcInd | adcN8 | subR8 | subInd | subN8 | sbcR8 | sbcInd
  | sbcN8 => exact .of_straight (aluA_straight h)
  | cpR8 | cpInd | cpN8 => exact .of_straight (compareA_straight h)
  | andR8 | andInd | andN8 | xorR8 | xorInd | xorN8 | orR8 | orInd | orN8 =>
    exact .of_straight (logicA_straight h)
  | rlcR8 | rlcInd | rrcR8 | rrcInd | rlR8 | rlInd | rrR8 | rrInd | slaR8 | slaInd | sraR8 | sraInd
  | swapR8 | swapInd | srlR8 | srlInd => exact .of_straight (shiftPlace_straight h)
  | rlca | rrca | rla | rra => exact .of_straight (rotateA_straight h)
  | incR8 | incInd => exact .of_straight (incPlace_straight h)
  | decR8 | decInd => exact .of_straight (decPlace_straight h)
  | bitR8 | bitInd => exact .of_straight (testBit_straight h)
  | resR8 | resInd => exact .of_straight (clearBit_straight h)
  | setR8 | setInd => exact .of_straight (setBit_straight h)
  | addHlR16 | addHlSp => exact .of_straight (addHl_straight h)
  | nop | ldR16N16 | ldHliA | ldHldA | ldAHli | ldAHld | incR16 | decR16 | ldR8N8 | ldIndN8 | daa
  | cpl | scf | ccf | ldN16Sp | ldR8R8 | ldR8Ind | ldIndR8 | ldHlSpE8 =>
    cases h
    exact .of_straight (by simp [Straight, Instr.size, Instr.format, Format.size])
  | ldSpN16 | ldSpHl | incSp | decSp | addSpE8 | pushR16 | pushAf | popR16 | popAf =>
    cases h
    exact .of_writesSp rfl (by simp [Instr.size, Instr.format, Format.size])
  | jr | jrCc => exact .of_assignsPc rfl (jumpRelative_flow h)
  | jp | jpCc | jpHl => exact .of_assignsPc rfl (jumpTo_flow h)
  | call | callCc | rst => exact .of_assignsPc_writesSp rfl rfl (callTo_flow h)
  | ret | retCc => exact .of_assignsPc_writesSp rfl rfl (returnIf_flow h)
  | reti => exact .reti h
  | di | ei =>
    cases h
    exact .of_isControl rfl (fun _ => rfl) (fun _ => rfl) rfl rfl
  | halt => exact .halt h
  | stop => exact .stop h
  | illegalD3 | illegalDB | illegalDD | illegalE3 | illegalE4 | illegalEB | illegalEC | illegalED
  | illegalF4 | illegalFC | illegalFD => cases h

/-- Settles O47: each shared body is read off once, and the instructions are sorted by their body. -/
theorem onlyListedRegistersChange : Obligations.OnlyListedRegistersChange := by
  intro i s t h
  obtain ⟨hpc, hsp, hcontrol, hplatform, henv⟩ := exec_onlyListed h
  exact ⟨hpc, hsp, hcontrol, hplatform, henv⟩

end Sys2Proof.Machine
end

section
/-! SUPPORT. The register pairs as numbers (10_state.md R21, R22). -/

namespace Sys2Proof.Machine

theorem bc_toNat (s : State) : s.bc.toNat = 256 * s.b.toNat + s.c.toNat := joinBytes_toNat s.b s.c

theorem de_toNat (s : State) : s.de.toNat = 256 * s.d.toNat + s.e.toNat := joinBytes_toNat s.d s.e

theorem hl_toNat (s : State) : s.hl.toNat = 256 * s.h.toNat + s.l.toNat := joinBytes_toNat s.h s.l

/-- What is left of a byte as F: bits 3..0 are 0 (R21). -/
theorem and_F0_toNat (v : Byte) : (v &&& 0xF0).toNat = v.toNat / 16 * 16 := by
  revert v; decide

theorem af_toNat (s : State) : s.af.toNat = 256 * s.a.toNat + s.f.toNat / 16 * 16 := by
  rw [State.af, joinBytes_toNat, State.flagsReg, and_F0_toNat]

theorem setAf_f_toNat (s : State) (w : Word) : (s.setAf w).f.toNat = w.toNat % 256 / 16 * 16 := by
  rw [setAf_f, and_F0_toNat, lo8_toNat]

/-- Settles O6: each pair is read by `joinBytes` and written by `hi8` and `lo8`. -/
theorem pairsAreTwoRegisters : Obligations.PairsAreTwoRegisters := by
  refine ⟨fun s => ⟨bc_toNat s, de_toNat s, hl_toNat s, af_toNat s⟩, fun s p w => ?_, fun s w => ?_⟩
  · exact ⟨setReg16_reg16_same s p w, regsKept_setReg16 s p w, hi8_toNat w, lo8_toNat w, hi8_toNat w,
      lo8_toNat w, hi8_toNat w, lo8_toNat w⟩
  · exact ⟨hi8_toNat w, setAf_f_toNat s w⟩

end Sys2Proof.Machine
end

section
/-! SUPPORT. What an instruction does to the flags and to the fixed bits and bytes (10_state.md R21, R29,
R33; 20_memory.md R62), read off its body: a body either leaves F or writes all four flags, and stores
through the bus only. -/

namespace Sys2Proof.Machine

/-! ## States whose bytes are in order -/

/-- The part of the invariant that is about bytes: plain memory, F's low bits, IF's high bits. -/
structure State.Tidy (s : State) : Prop where
  memCanonical : s.mem.wf
  memPlain : ∀ x ∈ s.mem, s.isPlain (BitVec.ofNat 16 x.1) = true
  flagsLow : s.f.toNat % 16 = 0
  ifHigh : s.ifReg.toNat / 32 = 7

/-- Which addresses are plain depends on the parameters alone. -/
theorem isPlain_congr {s t : State} (h : t.platform = s.platform) (a : Addr) :
    t.isPlain a = s.isPlain a := by
  simp [State.isPlain, State.inRam, h]

/-- An address the bus takes for plain memory is plain. -/
theorem isPlain_of_inRam {s : State} {a : Addr}
    (h : a ≠ ieAddr ∧ a ≠ ifAddr ∧ a ≠ key1Addr ∧ s.inRam a = true) : s.isPlain a = true := by
  obtain ⟨hie, hif, hkey1, hram⟩ := h
  simp [State.isPlain, isCpuRegister, hie, hif, hkey1, hram]

/-- Setting low bits keeps bits 7..5. -/
theorem or_zeroExtend_div_32 (v : Byte) (x : BitVec 5) :
    (v ||| x.zeroExtend 8).toNat / 32 = v.toNat / 32 := by
  have hx : x.toNat / 2 ^ 5 = 0 := Nat.div_eq_of_lt x.isLt
  have hx8 : (x.zeroExtend 8).toNat = x.toNat := by simp; omega
  rw [BitVec.toNat_or, hx8, show (32 : Nat) = 2 ^ 5 from rfl, Nat.or_div_two_pow, hx, Nat.or_zero]

/-- Clearing a request keeps bits 7..5. -/
theorem clear_bit_div_32 (v : Byte) (i : IrqSource) :
    (v &&& ~~~((1 : Byte) <<< i.bit)).toNat / 32 = v.toNat / 32 := by
  cases i <;> revert v <;> decide

theorem or_E0_div_32 (v : Byte) : (v ||| 0xE0).toNat / 32 = 7 := by
  revert v; decide

namespace State.Tidy

variable {s t : State}

/-- Only memory, F, IF and the parameters count. -/
theorem congr (h : s.Tidy) (hmem : t.mem = s.mem) (hplatform : t.platform = s.platform)
    (hf : t.f = s.f) (hif : t.ifReg = s.ifReg) : t.Tidy := by
  obtain ⟨hwf, hplain, hlow, hhigh⟩ := h
  refine ⟨hmem ▸ hwf, fun x hx => ?_, hf ▸ hlow, hif ▸ hhigh⟩
  rw [isPlain_congr hplatform]
  exact hplain x (hmem ▸ hx)

/-- An operation that touches none of them: the bytes are in order after it iff they were before. -/
theorem iff_of_eq (hmem : t.mem = s.mem := by simp) (hplatform : t.platform = s.platform := by simp)
    (hf : t.f = s.f := by simp) (hif : t.ifReg = s.ifReg := by simp) : t.Tidy ↔ s.Tidy :=
  ⟨fun h => h.congr hmem.symm hplatform.symm hf.symm hif.symm,
    fun h => h.congr hmem hplatform hf hif⟩

@[simp] theorem setReg8_iff (r : Reg8) (v : Byte) : (s.setReg8 r v).Tidy ↔ s.Tidy := iff_of_eq

@[simp] theorem setReg16_iff (p : Reg16) (w : Word) : (s.setReg16 p w).Tidy ↔ s.Tidy := iff_of_eq

@[simp] theorem setSp_iff (w : Word) : (s.setSp w).Tidy ↔ s.Tidy := iff_of_eq

@[simp] theorem setPc_iff (w : Addr) : (s.setPc w).Tidy ↔ s.Tidy := iff_of_eq

@[simp] theorem advance_iff (n : Nat) : (s.advance n).Tidy ↔ s.Tidy := iff_of_eq

@[simp] theorem afterRead_iff (a : Addr) : (s.afterRead a).Tidy ↔ s.Tidy := iff_of_eq

@[simp] theorem afterPop_iff : s.afterPop.Tidy ↔ s.Tidy := iff_of_eq

@[simp] theorem afterSrc8_iff (x : Src8) : (s.afterSrc8 x).Tidy ↔ s.Tidy := by
  cases x <;> simp

@[simp] theorem afterReadPlace_iff (p : Place8) : (s.afterReadPlace p).Tidy ↔ s.Tidy := by
  cases p <;> simp

@[simp] theorem returnFromInterrupt_iff : s.returnFromInterrupt.Tidy ↔ s.Tidy := iff_of_eq

@[simp] theorem setFlags (hs : s.Tidy) (z n h c : Bool) : (s.setFlags z n h c).Tidy := by
  refine ⟨hs.memCanonical, hs.memPlain, ?_, hs.ifHigh⟩
  rw [setFlags_f, packFlags_toNat]
  omega

@[simp] theorem setAf (h : s.Tidy) (w : Word) : (s.setAf w).Tidy := by
  refine ⟨h.memCanonical, h.memPlain, ?_, h.ifHigh⟩
  rw [setAf_f, and_F0_toNat]
  omega

/-- A store keeps memory canonical and lists plain addresses only; a store to IF keeps its high bits. -/
@[simp] theorem writeByte (h : s.Tidy) (a : Addr) (v : Byte) : (s.writeByte a v).Tidy := by
  refine ⟨?_, fun x hx => ?_, by simpa using h.flagsLow, ?_⟩
  · rw [writeByte_mem]
    split
    · exact Memory.wf_write h.memCanonical a.isLt v
    · exact h.memCanonical
  · rw [isPlain_congr (writeByte_platform s a v)]
    rw [writeByte_mem] at hx
    split at hx
    · next ha =>
      rcases Memory.mem_write hx with ⟨rfl, -⟩ | hx
      · simpa using isPlain_of_inRam ha
      · exact h.memPlain x hx
    · exact h.memPlain x hx
  · rw [writeByte_ifReg]
    split
    · exact or_E0_div_32 v
    · exact h.ifHigh

@[simp] theorem writeWord (h : s.Tidy) (a : Addr) (w : Word) : (s.writeWord a w).Tidy :=
  (h.writeByte _ _).writeByte _ _

@[simp] theorem push16 (h : s.Tidy) (w : Word) : (s.push16 w).Tidy := by
  simp [push16_eq, h]

@[simp] theorem writePlace (h : s.Tidy) (p : Place8) (v : Byte) : (s.writePlace p v).Tidy := by
  cases p <;> simp [h]

theorem enterInterrupt (h : s.Tidy) (i : IrqSource) : (s.enterInterrupt i).Tidy :=
  have hclear : (({ s with ime := false, imePending := false } : State).clearRequest i).Tidy :=
    ⟨h.memCanonical, h.memPlain, h.flagsLow, (clear_bit_div_32 s.ifReg i).trans h.ifHigh⟩
  (setPc_iff _).2 (hclear.push16 _)

theorem afterEnv (h : s.Tidy) : s.afterEnv.Tidy :=
  ⟨h.memCanonical, h.memPlain, h.flagsLow, (or_zeroExtend_div_32 s.ifReg _).trans h.ifHigh⟩

end State.Tidy

/-! ## The rows of R29's table -/

/-- The flags went from those of `s` to those of `t` as the row allows. -/
def FlagRow.allows (row : FlagRow) (s t : State) : Prop :=
  row.z.allows s.flagZ t.flagZ ∧ row.n.allows s.flagN t.flagN ∧
  row.h.allows s.flagH t.flagH ∧ row.c.allows s.flagC t.flagC

/-- The row of an instruction that writes no flag. -/
abbrev FlagRow.untouched : FlagRow := ⟨.kept, .kept, .kept, .kept⟩

/-- The effect of writing a bit whatever the flag was. -/
abbrev FlagEffect.written (b : Bool) : FlagEffect := if b then .one else .zero

@[simp] theorem kept_allows (old new : Bool) : FlagEffect.kept.allows old new ↔ new = old := Iff.rfl

@[simp] theorem zero_allows (old new : Bool) : FlagEffect.zero.allows old new ↔ new = false := Iff.rfl

@[simp] theorem one_allows (old new : Bool) : FlagEffect.one.allows old new ↔ new = true := Iff.rfl

@[simp] theorem result_allows (old new : Bool) : FlagEffect.result.allows old new := trivial

theorem written_allows (b old : Bool) : (FlagEffect.written b).allows old b := by
  cases b <;> rfl

/-! ## What one instruction does -/

/-- An instruction that took `s` to `t` changed the flags as the row allows and left the bytes in
order. -/
structure Effect (row : FlagRow) (s t : State) : Prop where
  flags : row.allows s t
  tidy : s.Tidy → t.Tidy

/-- An instruction that does not write F. -/
theorem Effect.of_f_eq {s t : State} (hf : t.f = s.f) (ht : s.Tidy → t.Tidy) : Effect .untouched s t := by
  refine ⟨?_, ht⟩
  simp [FlagRow.allows, State.flagZ, State.flagN, State.flagH, State.flagC, hf]

/-- An instruction that writes all four flags, the last thing it does. -/
theorem Effect.of_setFlags {row : FlagRow} {s u : State} {z n h c : Bool} (hu : s.Tidy → u.Tidy)
    (hz : row.z.allows s.flagZ z) (hn : row.n.allows s.flagN n) (hh : row.h.allows s.flagH h)
    (hc : row.c.allows s.flagC c) : Effect row s (u.setFlags z n h c) := by
  refine ⟨?_, fun hs => (hu hs).setFlags z n h c⟩
  simp [FlagRow.allows, hz, hn, hh, hc]

section Bodies

variable {n : Nat} {s t : State}

theorem loadA_effect {a : Addr} (h : loadA n a s = .next t) : Effect .untouched s t := by
  cases h
  exact .of_f_eq (by simp) fun hs => by simp [hs]

theorem storeA_effect {a : Addr} (h : storeA n a s = .next t) : Effect .untouched s t := by
  cases h
  exact .of_f_eq (by simp) fun hs => by simp [hs]

theorem aluA_effect {src : Src8} {sub : Bool} {f : Byte → Byte → Bool → Result8}
    (h : aluA n src sub f s = .next t) :
    Effect ⟨.result, .written sub, .result, .result⟩ s t := by
  cases h
  exact .of_setFlags (fun hs => by simp [hs]) trivial (written_allows sub _) trivial trivial

theorem compareA_effect {src : Src8} (h : compareA n src s = .next t) :
    Effect ⟨.result, .one, .result, .result⟩ s t := by
  cases h
  exact .of_setFlags (fun hs => by simp [hs]) trivial rfl trivial trivial

theorem logicA_effect {src : Src8} {half : Bool} {f : Byte → Byte → Byte}
    (h : logicA n src half f s = .next t) :
    Effect ⟨.result, .zero, .written half, .zero⟩ s t := by
  cases h
  exact .of_setFlags (fun hs => by simp [hs]) trivial rfl (written_allows half _) rfl

/-- SWAP alone among the shifts gives no carry. -/
theorem shiftPlace_effect {op : ShiftOp} {p : Place8} (h : shiftPlace op p s = .next t) :
    Effect ⟨.result, .zero, .zero, if op = .swap then .zero else .result⟩ s t := by
  cases h
  refine .of_setFlags (fun hs => by simp [hs]) trivial rfl rfl ?_
  cases op with
  | swap => rfl
  | rlc | rrc | rl | rr | sla | sra | srl => trivial

theorem rotateA_effect {op : ShiftOp} (h : rotateA op s = .next t) :
    Effect ⟨.zero, .zero, .zero, .result⟩ s t := by
  cases h
  exact .of_setFlags (fun hs => by simp [hs]) rfl rfl rfl trivial

theorem incPlace_effect {p : Place8} (h : incPlace p s = .next t) :
    Effect ⟨.result, .zero, .result, .kept⟩ s t := by
  cases h
  exact .of_setFlags (fun hs => by simp [hs]) trivial rfl trivial rfl

theorem decPlace_effect {p : Place8} (h : decPlace p s = .next t) :
    Effect ⟨.result, .one, .result, .kept⟩ s t := by
  cases h
  exact .of_setFlags (fun hs => by simp [hs]) trivial rfl trivial rfl

theorem testBit_effect {u : BitVec 3} {p : Place8} (h : testBit u p s = .next t) :
    Effect ⟨.result, .zero, .one, .kept⟩ s t := by
  cases h
  exact .of_setFlags (fun hs => by simp [hs]) trivial rfl rfl rfl

/-- Writing a place writes no flag. -/
theorem writePlace_effect (n : Nat) (p : Place8) (v : Byte) :
    Effect .untouched s (((s.advance n).afterReadPlace p).writePlace p v) := by
  refine .of_f_eq ?_ fun hs => by simp [hs]
  cases p <;> simp

theorem clearBit_effect {u : BitVec 3} {p : Place8} (h : clearBit u p s = .next t) :
    Effect .untouched s t := by
  cases h
  exact writePlace_effect 2 p _

theorem setBit_effect {u : BitVec 3} {p : Place8} (h : setBit u p s = .next t) :
    Effect .untouched s t := by
  cases h
  exact writePlace_effect 2 p _

theorem addHl_effect {w : State → Word} (h : addHl w s = .next t) :
    Effect ⟨.kept, .zero, .result, .result⟩ s t := by
  cases h
  exact .of_setFlags (fun hs => by simp [hs]) rfl rfl trivial trivial

theorem jumpTo_effect {taken : State → Bool} {target : State → Word}
    (h : jumpTo n taken target s = .next t) : Effect .untouched s t := by
  cases h
  split <;> exact .of_f_eq (by simp) fun hs => by simp [hs]

theorem jumpRelative_effect {taken : State → Bool} {e : Byte} (h : jumpRelative taken e s = .next t) :
    Effect .untouched s t := jumpTo_effect h

theorem callTo_effect {taken : State → Bool} {target : Word} (h : callTo n taken target s = .next t) :
    Effect .untouched s t := by
  cases h
  split <;> exact .of_f_eq (by simp) fun hs => by simp [hs]

theorem returnIf_effect {taken : State → Bool} (h : returnIf taken s = .next t) :
    Effect .untouched s t := by
  cases h
  split <;> exact .of_f_eq (by simp) fun hs => by simp [hs]

/-- HALT goes on in two ways (49_misc.md R296): with a double read left, where neither IME nor an EI
under way would take the interrupt, or halted. -/
theorem execHalt_next (h : execHalt s = .next t) :
    (s.ime = false ∧ s.imePending = false ∧ t = { s.advance 1 with haltBug := true }) ∨
    t = { s.advance 1 with halted := true } := by
  simp only [execHalt] at h
  split at h
  · cases h
  · next hgo =>
    have hei : s.imePending = true → s.pending = 0 := by simpa using hgo
    split at h <;> cases h
    · next hbug =>
      obtain ⟨hime, hpending⟩ : s.ime = false ∧ s.pending ≠ 0 := by simpa using hbug
      exact .inl ⟨hime, Bool.eq_false_iff.2 fun h => hpending (hei h), rfl⟩
    · exact .inr rfl

/-- STOP goes on in two ways (49_misc.md R298), and on a CGB only: with the speed switched, or
stopped. -/
theorem execStop_next {b : Byte} (h : execStop b s = .next t) :
    s.platform.model = .cgb ∧
    (t = { s.advance 2 with doubleSpeed := !s.doubleSpeed, key1Arm := false } ∨
      t = { s.advance 2 with stopped := true }) := by
  simp only [execStop] at h
  split at h
  · cases h
  · split at h
    · cases h
    · next hmodel =>
      split at h <;> cases h
      · exact ⟨hmodel, .inl rfl⟩
      · exact ⟨hmodel, .inr rfl⟩

theorem execHalt_effect (h : execHalt s = .next t) : Effect .untouched s t := by
  rcases execHalt_next h with ⟨-, -, rfl⟩ | rfl <;> exact .of_f_eq rfl fun hs => hs.congr rfl rfl rfl rfl

theorem execStop_effect {b : Byte} (h : execStop b s = .next t) : Effect .untouched s t := by
  obtain ⟨-, rfl | rfl⟩ := execStop_next h <;> exact .of_f_eq rfl fun hs => hs.congr rfl rfl rfl rfl

end Bodies

/-- Every instruction that goes on changes the flags as its row of R29's table allows, and leaves the bytes
in order: a case for each shared body; the bodies of their own are sorted by what they do to F. -/
theorem exec_effect {i : Instr} {s t : State} (h : exec i s = .next t) : Effect (flagRow i) s t := by
  unfold exec at h
  cases i with
  | ldABc | ldADe | ldAN16 | ldhAN8 | ldhAC => exact loadA_effect h
  | ldBcA | ldDeA | ldN16A | ldhN8A | ldhCA => exact storeA_effect h
  | addR8 | addInd | addN8 | adcR8 | adcInd | adcN8 | subR8 | subInd | subN8 | sbcR8 | sbcInd
  | sbcN8 => exact (aluA_effect h :)
  | cpR8 | cpInd | cpN8 => exact compareA_effect h
  | andR8 | andInd | andN8 | xorR8 | xorInd | xorN8 | orR8 | orInd | orN8 =>
    exact (logicA_effect h :)
  | rlcR8 | rlcInd | rrcR8 | rrcInd | rlR8 | rlInd | rrR8 | rrInd | slaR8 | slaInd | sraR8 | sraInd
  | swapR8 | swapInd | srlR8 | srlInd => exact (shiftPlace_effect h :)
  | rlca | rrca | rla | rra => exact rotateA_effect h
  | incR8 | incInd => exact incPlace_effect h
  | decR8 | decInd => exact decPlace_effect h
  | bitR8 | bitInd => exact testBit_effect h
  | resR8 | resInd => exact clearBit_effect h
  | setR8 | setInd => exact setBit_effect h
  | addHlR16 | addHlSp => exact addHl_effect h
  | jr | jrCc => exact jumpRelative_effect h
  | jp | jpCc | jpHl => exact jumpTo_effect h
  | call | callCc | rst => exact callTo_effect h
  | ret | retCc => exact returnIf_effect h
  | nop | ldR16N16 | ldSpN16 | ldSpHl | ldN16Sp | ldR8R8 | ldR8N8 | ldR8Ind | ldIndR8 | ldIndN8 | ldHliA
  | ldHldA | ldAHli | ldAHld | incR16 | decR16 | incSp | decSp | pushR16 | pushAf | popR16 =>
    cases h
    exact .of_f_eq (by simp [State.writeWord]) fun hs => by simp [hs]
  | reti =>
    cases h
    exact .of_f_eq (by simp) fun hs => by simp [hs]
  | di | ei =>
    cases h
    exact .of_f_eq rfl fun hs => hs.congr rfl rfl rfl rfl
  | cpl | scf =>
    cases h
    exact .of_setFlags (fun hs => by simp [hs]) rfl rfl rfl rfl
  | ccf =>
    cases h
    exact .of_setFlags (fun hs => by simp [hs]) rfl rfl rfl trivial
  | daa =>
    cases h
    exact .of_setFlags (fun hs => by simp [hs]) trivial rfl rfl trivial
  | ldHlSpE8 | addSpE8 =>
    cases h
    exact .of_setFlags (fun hs => by simp [hs]) rfl rfl trivial trivial
  | popAf =>
    cases h
    exact ⟨⟨trivial, trivial, trivial, trivial⟩, fun hs => by simp [hs]⟩
  | halt => exact execHalt_effect h
  | stop => exact execStop_effect h
  | illegalD3 | illegalDB | illegalDD | illegalE3 | illegalE4 | illegalEB | illegalEC | illegalED
  | illegalF4 | illegalFC | illegalFD => cases h

/-- Settles O45: the flags' half of what every instruction does. -/
theorem flagTable : Obligations.FlagTable := fun _ _ _ h => (exec_effect h).flags

end Sys2Proof.Machine
end

section
/-! SUPPORT. What a whole step keeps (60_exceptions.md R316): the invariant, phase by phase, and how IME can
rise. -/

namespace Sys2Proof.Machine

/-! ## The waits and the speed -/

/-- The part of the invariant that is about the hidden bits: a double read is left alone, one wait at most,
no speed switch on a DMG. -/
structure State.Settled (s : State) : Prop where
  doubleRead : s.haltBug = true →
    s.ime = false ∧ s.imePending = false ∧ s.halted = false ∧ s.stopped = false
  oneWait : ¬(s.halted = true ∧ s.stopped = true)
  dmgSpeed : s.platform.model = .dmg → s.doubleSpeed = false

/-- The invariant is about the bytes and about the hidden bits. -/
theorem inv_iff (s : State) : s.Inv ↔ s.Tidy ∧ s.Settled :=
  ⟨fun ⟨hcanonical, hplain, hlow, hhigh, hbug, hwait, hspeed⟩ =>
      ⟨⟨hcanonical, hplain, hlow, hhigh⟩, ⟨hbug, hwait, hspeed⟩⟩,
    fun ⟨⟨hcanonical, hplain, hlow, hhigh⟩, ⟨hbug, hwait, hspeed⟩⟩ =>
      ⟨hcanonical, hplain, hlow, hhigh, hbug, hwait, hspeed⟩⟩

/-- Without a double read left, the two waits and the speed are all there is to it. -/
theorem State.Settled.of_haltBug_eq_false {t : State} (hbug : t.haltBug = false)
    (hwait : t.halted = false ∨ t.stopped = false)
    (hspeed : t.platform.model = .dmg → t.doubleSpeed = false) : t.Settled := by
  refine ⟨by simp [hbug], ?_, hspeed⟩
  rintro ⟨hhalted, hstopped⟩
  simp [hhalted, hstopped] at hwait

theorem isControl_cases {i : Instr} (h : isControl i = true) :
    i = .di ∨ i = .ei ∨ i = .reti ∨ i = .halt ∨ ∃ b, i = .stop b := by
  cases i <;> simp [isControl] at h ⊢

/-- An instruction that runs while the CPU does not wait settles the hidden bits: HALT alone leaves a
double read, and HALT and STOP begin one wait. -/
theorem exec_settled {i : Instr} {s t : State} (h : exec i s = .next t) (hs : s.Settled)
    (hhalted : s.halted = false) (hstopped : s.stopped = false) : t.Settled := by
  by_cases hc : isControl i = true
  · rcases isControl_cases hc with rfl | rfl | rfl | rfl | ⟨b, rfl⟩
    · cases h
      exact .of_haltBug_eq_false rfl (.inl hhalted) hs.dmgSpeed
    · cases h
      exact .of_haltBug_eq_false rfl (.inl hhalted) hs.dmgSpeed
    · cases h
      exact .of_haltBug_eq_false (by simp) (by simp [hhalted]) (by simpa using hs.dmgSpeed)
    · rcases execHalt_next h with ⟨hime, hpending, rfl⟩ | rfl
      · exact ⟨fun _ => ⟨hime, hpending, hhalted, hstopped⟩, by simp [hhalted], hs.dmgSpeed⟩
      · exact .of_haltBug_eq_false rfl (.inr hstopped) hs.dmgSpeed
    · obtain ⟨hcgb, rfl | rfl⟩ := execStop_next h
      · exact .of_haltBug_eq_false rfl (.inl hhalted) (by simp [hcgb])
      · exact .of_haltBug_eq_false rfl (.inl hhalted) hs.dmgSpeed
  · obtain ⟨⟨-, -, hh, -, hspeed, hplatform, -⟩, hbug⟩ :=
      (exec_onlyListed h).control (Bool.eq_false_iff.2 hc)
    exact .of_haltBug_eq_false hbug (.inl (hh.trans hhalted)) (by rw [hplatform, hspeed]; exact hs.dmgSpeed)

/-! ## The phases of a step keep the invariant -/

section Phases

variable {s t : State}

/-- The environment raises requests and touches no hidden bit. -/
theorem inv_afterEnv (hs : s.Inv) : s.afterEnv.Inv := by
  obtain ⟨htidy, hbug, hwait, hspeed⟩ := (inv_iff s).1 hs
  exact (inv_iff _).2 ⟨htidy.afterEnv, hbug, hwait, hspeed⟩

theorem inv_endStop (hs : s.Inv) : ({ s with stopped := false } : State).Inv := by
  obtain ⟨htidy, hbug, -, hspeed⟩ := (inv_iff s).1 hs
  refine (inv_iff _).2 ⟨htidy.congr rfl rfl rfl rfl, fun h => ?_, by simp, hspeed⟩
  obtain ⟨hime, hpending, hhalted, -⟩ := hbug h
  exact ⟨hime, hpending, hhalted, rfl⟩

theorem inv_endHalt (hs : s.Inv) : ({ s with halted := false } : State).Inv := by
  obtain ⟨htidy, hbug, -, hspeed⟩ := (inv_iff s).1 hs
  refine (inv_iff _).2 ⟨htidy.congr rfl rfl rfl rfl, fun h => ?_, by simp, hspeed⟩
  obtain ⟨hime, hpending, -, hstopped⟩ := hbug h
  exact ⟨hime, hpending, rfl, hstopped⟩

theorem inv_awake (hs : s.Inv) : s.awake.Inv := inv_endHalt (inv_endStop (inv_afterEnv hs))

/-- An interrupt is taken with IME = 1, so no double read is left. -/
theorem inv_enterInterrupt (hs : s.Inv) (hime : s.ime = true) (hhalted : s.halted = false)
    (i : IrqSource) : (s.enterInterrupt i).Inv := by
  obtain ⟨htidy, hsettled⟩ := (inv_iff s).1 hs
  have hbug : s.haltBug = false := by
    refine Bool.eq_false_iff.2 fun h => ?_
    obtain ⟨hclear, -⟩ := hsettled.doubleRead h
    cases hime.symm.trans hclear
  exact (inv_iff _).2 ⟨htidy.enterInterrupt i,
    .of_haltBug_eq_false (by simpa using hbug) (by simp [hhalted]) (by simpa using hsettled.dmgSpeed)⟩

/-- The fetch uses up answers of the environment only. -/
theorem inv_fetch (hs : s.Inv) : s.fetch.2.Inv := by
  obtain ⟨k, hk⟩ := fetch_state s
  obtain ⟨htidy, hbug, hwait, hspeed⟩ := (inv_iff s).1 hs
  rw [hk]
  exact (inv_iff _).2 ⟨htidy.congr rfl rfl rfl rfl, hbug, hwait, hspeed⟩

theorem inv_exec {i : Instr} (hs : s.Inv) (hhalted : s.halted = false) (hstopped : s.stopped = false)
    (h : exec i s = .next t) : t.Inv := by
  obtain ⟨htidy, hsettled⟩ := (inv_iff s).1 hs
  exact (inv_iff t).2 ⟨(exec_effect h).tidy htidy, exec_settled h hsettled hhalted hstopped⟩

/-- EI's delayed effect meets no double read, for that comes with ime_pending = 0. -/
theorem inv_armIme (hs : s.Inv) (arm : Bool) : (s.armIme arm).Inv := by
  obtain ⟨htidy, hbug, hwait, hspeed⟩ := (inv_iff s).1 hs
  rw [armIme_eq]
  refine (inv_iff _).2 ⟨htidy.congr rfl rfl rfl rfl, fun h => ?_, hwait, hspeed⟩
  obtain ⟨hime, hpending, hwaits⟩ := hbug h
  simp [hime, hpending, hwaits]

end Phases

/-- Settles O50: each phase of the step keeps the invariant. -/
theorem stepKeepsInvariant : Obligations.StepKeepsInvariant := by
  intro s t hs h
  rcases step_cases s with ⟨hstep, -⟩ | ⟨-, ⟨hstep, -⟩ | ⟨i, hstep, hime, -⟩ | ⟨hstep, -⟩⟩
  · cases hstep.symm.trans h
    exact inv_afterEnv hs
  · cases hstep.symm.trans h
    exact inv_endStop (inv_afterEnv hs)
  · cases hstep.symm.trans h
    exact inv_enterInterrupt (inv_awake hs) hime rfl i
  · obtain ⟨v, hexec, rfl⟩ := completeStep_next (hstep.symm.trans h)
    obtain ⟨k, hk⟩ := fetch_state s.awake
    have hv : v.Inv := inv_exec (inv_fetch (inv_awake hs)) (by rw [hk]; rfl) (by rw [hk]; rfl) hexec
    exact inv_armIme hv s.imePending

/-! ## How IME rises -/

/-- No instruction but RETI raises IME at once (10_state.md R30). -/
theorem exec_ime_rises {i : Instr} {s t : State} (h : exec i s = .next t) (hs : s.ime = false)
    (ht : t.ime = true) : i = .reti := by
  by_cases hc : isControl i = true
  · rcases isControl_cases hc with rfl | rfl | rfl | rfl | ⟨b, rfl⟩
    · cases h
      cases ht
    · cases h
      simp [hs] at ht
    · rfl
    · rcases execHalt_next h with ⟨-, -, rfl⟩ | rfl <;> simp [hs] at ht
    · obtain ⟨-, rfl | rfl⟩ := execStop_next h <;> simp [hs] at ht
  · obtain ⟨⟨hime, -⟩, -⟩ := (exec_onlyListed h).control (Bool.eq_false_iff.2 hc)
    simp [hime, hs] at ht

/-- DI leaves no EI under way (49_misc.md R292). -/
theorem execDi_imePending {s t : State} (h : exec .di s = .next t) : t.imePending = false := by
  cases h
  rfl

/-- Settles O59: a wait keeps IME and an interrupt clears it, so an instruction ran, and either it raised
IME itself or an EI under way did after it. -/
theorem imeRisesOnlyByRetiOrEi : Obligations.ImeRisesOnlyByRetiOrEi := by
  intro s t h hs ht
  rcases step_cases s with ⟨hstep, -⟩ | ⟨-, ⟨hstep, -⟩ | ⟨i, -, hime, -⟩ | ⟨hstep, hruns⟩⟩
  · cases hstep.symm.trans h
    cases hs.symm.trans ht
  · cases hstep.symm.trans h
    cases hs.symm.trans ht
  · cases hs.symm.trans hime
  · obtain ⟨v, hexec, rfl⟩ := completeStep_next (hstep.symm.trans h)
    obtain ⟨k, hk⟩ := fetch_state s.awake
    have hu : s.awake.fetch.2.ime = false := by rw [hk]; exact hs
    refine ⟨hruns, ?_⟩
    rw [armIme_eq] at ht
    rcases Bool.or_eq_true_iff.1 ht with hv | hei
    · exact .inl (exec_ime_rises hexec hu hv)
    · obtain ⟨harm, hpending⟩ := Bool.and_eq_true_iff.1 hei
      refine .inr ⟨harm, fun hdi => ?_⟩
      rw [hdi] at hexec
      cases hpending.symm.trans (execDi_imePending hexec)

end Sys2Proof.Machine
end

section
/-! SUPPORT. The bus read after a write, one byte and two (20_memory.md R62, R64, R65, R67). -/

namespace Sys2Proof.Machine

/-! ## One byte -/

theorem SameBytes.refl (s : State) : SameBytes s s := ⟨rfl, rfl, rfl, rfl, rfl, rfl⟩

/-- Where the rules fix no byte, the environment's next answer is read and used up (R62, R67). -/
theorem readByte_of_peek_eq_none {s : State} {a : Addr} (h : s.peek a = none) :
    s.readByte a = Config.busAnswer s.draws a ∧ s.afterRead a = { s with draws := s.draws + 1 } := by
  simp [State.readByte, State.afterRead, h]

/-- The environment answers at the addresses that are neither a register of the CPU's nor in
`Bus.ram`. -/
theorem peek_eq_none_iff (s : State) (a : Addr) :
    s.peek a = none ↔ a ≠ ieAddr ∧ a ≠ ifAddr ∧ a ≠ key1Addr ∧ s.inRam a = false := by
  simp [State.peek, ite_eq_iff]

theorem writeByte_controlKept (s : State) (a : Addr) (v : Byte) : ControlKept s (s.writeByte a v) :=
  ⟨writeByte_ime s a v, writeByte_imePending s a v, writeByte_halted s a v, writeByte_stopped s a v,
    writeByte_doubleSpeed s a v, writeByte_platform s a v, writeByte_env s a v⟩

/-- Settles O7: a write is one store and touches nothing but bytes; a read is told by whether the rules
fix the byte. -/
theorem busReadAfterWrite : Obligations.BusReadAfterWrite := fun s a v =>
  ⟨stores_writeByte (.refl _), writeByte_draws s a v, fun r _ => writeByte_reg8 s a v r,
    writeByte_f s a v, writeByte_sp s a v, writeByte_controlKept s a v, writeByte_pc s a v,
    writeByte_haltBug s a v, readByte_of_peek, readByte_of_peek_eq_none, peek_eq_none_iff s a⟩

/-! ## Two bytes -/

/-- A word whose two bytes the rules fix is those two, the low one first, and its read changes nothing
(R64). -/
theorem readWord_of_peek {s : State} {a : Addr} {lo hi : Byte} (hlo : s.peek a = some lo)
    (hhi : s.peek (a + 1) = some hi) : s.readWord a = joinBytes hi lo ∧ s.afterReadWord a = s := by
  obtain ⟨hlow, hkept⟩ := readByte_of_peek hlo
  obtain ⟨hhigh, hkept'⟩ := readByte_of_peek hhi
  rw [State.readWord, State.afterReadWord, hkept, hlow, hhigh]
  exact ⟨rfl, hkept'⟩

/-- A word written is its low byte stored at the address and its high byte at the next one (R64). -/
theorem stores_writeWord (s : State) (a : Addr) (w : Word) :
    Stores [(a, BitVec.ofNat 8 (w.toNat % 256)), (a + 1, BitVec.ofNat 8 (w.toNat / 256))] s
      (s.writeWord a w) := by
  rw [← lo8_eq, ← hi8_eq]
  exact stores_writeByte_two (by bv_omega) (.refl _)

/-- Settles O8: a word is read and written as two bytes. -/
theorem wordsAreLittleEndian : Obligations.WordsAreLittleEndian := by
  refine fun s a => ⟨fun lo hi hlo hhi => ?_, stores_writeWord s a, rfl⟩
  obtain ⟨hword, hkept⟩ := readWord_of_peek hlo hhi
  exact ⟨by rw [hword, joinBytes_toNat], hkept⟩

end Sys2Proof.Machine
end

section
/-! SUPPORT. The addresses whose bytes an instruction changes (20_memory.md R61, R66; 49_misc.md R298),
read off its body: only the writes to the bus and STOP's speed switch are seen. -/

namespace Sys2Proof.Machine

/-! ## The operations that change a byte -/

/-- Every byte of the address space but those at the addresses listed reads as before. -/
def ChangesOnly (l : List Addr) (s t : State) : Prop := ∀ a, a ∉ l → t.peek a = s.peek a

/-- What happens before and after, and is seen by no read, does not count. -/
theorem ChangesOnly.of_peek_eq {l : List Addr} {s t u v : State} (h : ChangesOnly l u v)
    (hbefore : ∀ a, u.peek a = s.peek a) (hafter : ∀ a, t.peek a = v.peek a) : ChangesOnly l s t :=
  fun a ha => (hafter a).trans ((h a ha).trans (hbefore a))

theorem changesOnly_nil_iff {s t : State} : ChangesOnly [] s t ↔ ∀ a, t.peek a = s.peek a := by
  simp [ChangesOnly]

theorem ChangesOnly.trans {l m : List Addr} {s t u : State} (h : ChangesOnly l s t)
    (g : ChangesOnly m t u) : ChangesOnly (l ++ m) s u := by
  intro a ha
  obtain ⟨hl, hm⟩ : a ∉ l ∧ a ∉ m := by simpa using ha
  exact (g a hm).trans (h a hl)

theorem writeByte_changesOnly (s : State) (a : Addr) (v : Byte) :
    ChangesOnly [a] s (s.writeByte a v) := by
  intro b hb
  rw [peek_writeByte, if_neg (by simpa using hb)]

theorem writeWord_changesOnly (s : State) (a : Addr) (w : Word) :
    ChangesOnly [a, a + 1] s (s.writeWord a w) :=
  (writeByte_changesOnly s a _).trans (writeByte_changesOnly _ (a + 1) _)

theorem push16_changesOnly (s : State) (w : Word) :
    ChangesOnly [s.sp - 1, s.sp - 2] s (s.push16 w) := by
  rw [push16_eq]
  exact (writeByte_changesOnly s (s.sp - 1) _).trans (writeByte_changesOnly _ (s.sp - 2) _)

/-- The address a place is at, if it is one in memory. -/
def Place8.addrs (p : Place8) (s : State) : List Addr :=
  match p with
  | .reg _ => []
  | .ind => [s.hl]

/-- A place read and rewritten, after the fetches. -/
theorem rewritePlace_changesOnly (n : Nat) (s : State) (p : Place8) (v : Byte) :
    ChangesOnly (p.addrs s) s (((s.advance n).afterReadPlace p).writePlace p v) := by
  cases p with
  | reg r => exact changesOnly_nil_iff.2 (by simp)
  | ind =>
    have hwrite := writeByte_changesOnly ((s.advance n).afterRead s.hl) s.hl v
    exact hwrite.of_peek_eq (by simp) (by simp)

@[simp] theorem afterSrc8_peek (s : State) (x : Src8) (a : Addr) : (s.afterSrc8 x).peek a = s.peek a := by
  cases x <;> simp

@[simp] theorem afterReadPlace_peek (s : State) (p : Place8) (a : Addr) :
    (s.afterReadPlace p).peek a = s.peek a := by
  cases p <;> simp

@[simp] theorem returnFromInterrupt_peek (s : State) (a : Addr) :
    s.returnFromInterrupt.peek a = s.peek a :=
  SameBytes.peek (by simp [SameBytes]) a

/-- KEY1 alone shows its bit 0 and double_speed (10_state.md R34). -/
theorem speedSwitch_changesOnly (s : State) (double arm : Bool) :
    ChangesOnly [key1Addr] s { s with doubleSpeed := double, key1Arm := arm } := by
  intro a ha
  have hkey1 : a ≠ key1Addr := by simpa using ha
  simp [State.peek, hkey1, State.readIf, State.inRam]

/-! ## The shared bodies -/

section Bodies

variable {n : Nat} {s t : State}

theorem loadA_changesOnly {a : Addr} (h : loadA n a s = .next t) : ChangesOnly [] s t := by
  cases h
  exact changesOnly_nil_iff.2 (by simp)

theorem storeA_changesOnly {a : Addr} (h : storeA n a s = .next t) : ChangesOnly [a] s t := by
  cases h
  exact writeByte_changesOnly (s.advance n) a _

theorem aluA_changesOnly {src : Src8} {sub : Bool} {f : Byte → Byte → Bool → Result8}
    (h : aluA n src sub f s = .next t) : ChangesOnly [] s t := by
  cases h
  exact changesOnly_nil_iff.2 (by simp)

theorem compareA_changesOnly {src : Src8} (h : compareA n src s = .next t) : ChangesOnly [] s t := by
  cases h
  exact changesOnly_nil_iff.2 (by simp)

theorem logicA_changesOnly {src : Src8} {half : Bool} {f : Byte → Byte → Byte}
    (h : logicA n src half f s = .next t) : ChangesOnly [] s t := by
  cases h
  exact changesOnly_nil_iff.2 (by simp)

theorem shiftPlace_changesOnly {op : ShiftOp} {p : Place8} (h : shiftPlace op p s = .next t) :
    ChangesOnly (p.addrs s) s t := by
  cases h
  exact rewritePlace_changesOnly 2 s p _

theorem rotateA_changesOnly {op : ShiftOp} (h : rotateA op s = .next t) : ChangesOnly [] s t := by
  cases h
  exact changesOnly_nil_iff.2 (by simp)

theorem incPlace_changesOnly {p : Place8} (h : incPlace p s = .next t) :
    ChangesOnly (p.addrs s) s t := by
  cases h
  exact rewritePlace_changesOnly 1 s p _

theorem decPlace_changesOnly {p : Place8} (h : decPlace p s = .next t) :
    ChangesOnly (p.addrs s) s t := by
  cases h
  exact rewritePlace_changesOnly 1 s p _

theorem testBit_changesOnly {u : BitVec 3} {p : Place8} (h : testBit u p s = .next t) :
    ChangesOnly [] s t := by
  cases h
  exact changesOnly_nil_iff.2 (by simp)

theorem clearBit_changesOnly {u : BitVec 3} {p : Place8} (h : clearBit u p s = .next t) :
    ChangesOnly (p.addrs s) s t := by
  cases h
  exact rewritePlace_changesOnly 2 s p _

theorem setBit_changesOnly {u : BitVec 3} {p : Place8} (h : setBit u p s = .next t) :
    ChangesOnly (p.addrs s) s t := by
  cases h
  exact rewritePlace_changesOnly 2 s p _

theorem addHl_changesOnly {w : State → Word} (h : addHl w s = .next t) : ChangesOnly [] s t := by
  cases h
  exact changesOnly_nil_iff.2 (by simp)

theorem jumpTo_changesOnly {taken : State → Bool} {target : State → Word}
    (h : jumpTo n taken target s = .next t) : ChangesOnly [] s t := by
  cases h
  exact changesOnly_nil_iff.2 fun a => by split <;> simp

theorem jumpRelative_changesOnly {taken : State → Bool} {e : Byte}
    (h : jumpRelative taken e s = .next t) : ChangesOnly [] s t := jumpTo_changesOnly h

/-- A call stores where it is taken only (48_control.md R271, R272). -/
theorem callTo_changesOnly {taken : State → Bool} {target : Word}
    (h : callTo n taken target s = .next t) :
    ChangesOnly (if taken (s.advance n) then [s.sp - 1, s.sp - 2] else []) s t := by
  cases h
  split
  · exact (push16_changesOnly (s.advance n) _).of_peek_eq (advance_peek s n) (setPc_peek _ target)
  · exact changesOnly_nil_iff.2 (by simp)

theorem returnIf_changesOnly {taken : State → Bool} (h : returnIf taken s = .next t) :
    ChangesOnly [] s t := by
  cases h
  exact changesOnly_nil_iff.2 fun a => by split <;> simp

end Bodies

/-! ## Every instruction -/

/-- The machine's test of a condition is the one on F as a number (48_control.md R265). -/
theorem cond_eq_condHolds (s : State) (cc : Cond) : s.cond cc = condHolds cc s := by
  cases cc <;>
    simp [State.cond, condHolds, State.flagZ, State.flagC, BitVec.getLsbD,
      Nat.testBit_eq_decide_div_mod_eq, ← decide_not]

theorem execCallCc_changesOnly {cc : Cond} {w : Word} {s t : State} (h : execCallCc cc w s = .next t) :
    ChangesOnly (storesTo (.callCc cc w) s) s t := by
  have hcall := callTo_changesOnly h
  rwa [advance_cond, cond_eq_condHolds] at hcall

/-- An instruction that goes on changes the bytes at its listed addresses only: a case for each shared
body; the bodies of their own are sorted by what they store. -/
theorem exec_changesOnly {i : Instr} {s t : State} (h : exec i s = .next t) :
    ChangesOnly (storesTo i s) s t := by
  unfold exec at h
  cases i with
  | ldABc | ldADe | ldAN16 | ldhAN8 | ldhAC => exact loadA_changesOnly h
  | ldBcA | ldDeA | ldN16A | ldhN8A | ldhCA => exact storeA_changesOnly h
  | addR8 | addInd | addN8 | adcR8 | adcInd | adcN8 | subR8 | subInd | subN8 | sbcR8 | sbcInd
  | sbcN8 => exact (aluA_changesOnly h :)
  | cpR8 | cpInd | cpN8 => exact compareA_changesOnly h
  | andR8 | andInd | andN8 | xorR8 | xorInd | xorN8 | orR8 | orInd | orN8 =>
    exact (logicA_changesOnly h :)
  | rlcR8 | rlcInd | rrcR8 | rrcInd | rlR8 | rlInd | rrR8 | rrInd | slaR8 | slaInd | sraR8 | sraInd
  | swapR8 | swapInd | srlR8 | srlInd => exact shiftPlace_changesOnly h
  | rlca | rrca | rla | rra => exact rotateA_changesOnly h
  | incR8 | incInd => exact incPlace_changesOnly h
  | decR8 | decInd => exact decPlace_changesOnly h
  | bitR8 | bitInd => exact testBit_changesOnly h
  | resR8 | resInd => exact clearBit_changesOnly h
  | setR8 | setInd => exact setBit_changesOnly h
  | addHlR16 | addHlSp => exact addHl_changesOnly h
  | jr | jrCc => exact jumpRelative_changesOnly h
  | jp | jpCc | jpHl => exact jumpTo_changesOnly h
  | call | rst => exact (callTo_changesOnly h :)
  | callCc => exact execCallCc_changesOnly h
  | ret | retCc => exact returnIf_changesOnly h
  | nop | ldR16N16 | ldSpN16 | ldSpHl | ldR8R8 | ldR8N8 | ldR8Ind | ldAHli | ldAHld | incR16 | decR16
  | incSp | decSp | popR16 | popAf | reti | cpl | scf | ccf | daa | ldHlSpE8 | addSpE8 =>
    cases h
    exact changesOnly_nil_iff.2 fun a => by simp
  | di | ei =>
    cases h
    exact fun _ _ => rfl
  | ldIndR8 r =>
    cases h
    exact writeByte_changesOnly (s.advance 1) s.hl (s.reg8 r)
  | ldIndN8 n =>
    cases h
    exact writeByte_changesOnly (s.advance 2) s.hl n
  | ldHliA | ldHldA =>
    cases h
    exact (writeByte_changesOnly (s.advance 1) s.hl s.a).of_peek_eq (by simp) (setReg16_peek _ .hl _)
  | ldN16Sp n =>
    cases h
    exact writeWord_changesOnly (s.advance 3) n s.sp
  | pushR16 | pushAf =>
    cases h
    exact push16_changesOnly (s.advance 1) _
  | halt => rcases execHalt_next h with ⟨-, -, rfl⟩ | rfl <;> exact fun _ _ => rfl
  | stop =>
    obtain ⟨-, rfl | rfl⟩ := execStop_next h
    · exact speedSwitch_changesOnly (s.advance 2) _ _
    · exact fun _ _ => rfl
  | illegalD3 | illegalDB | illegalDD | illegalE3 | illegalE4 | illegalEB | illegalEC | illegalED
  | illegalF4 | illegalFC | illegalFD => cases h

/-- Settles O46: each shared body is read off once, and the instructions are sorted by their body. -/
theorem onlyListedBytesChange : Obligations.OnlyListedBytesChange := fun _ _ _ => exec_changesOnly

end Sys2Proof.Machine
end

section
/-! SUPPORT. The decoder and the encoder undo each other (30_encoding.md R92 to R104): first the codes of
R94 and R95, then the encoder on each of the decoder's maps, then the byte lists. -/

namespace Sys2Proof

open Sys2Proof.Machine

/-! ## Codes -/

/-- A 3-bit field has eight values. -/
theorem codeCases {motive : BitVec 3 → Prop} (zero : motive 0) (one : motive 1) (two : motive 2)
    (three : motive 3) (four : motive 4) (five : motive 5) (six : motive 6) (seven : motive 7)
    (k : BitVec 3) : motive k := by
  have hk : k = 0 ∨ k = 1 ∨ k = 2 ∨ k = 3 ∨ k = 4 ∨ k = 5 ∨ k = 6 ∨ k = 7 := by
    revert k; decide
  rcases hk with rfl | rfl | rfl | rfl | rfl | rfl | rfl | rfl <;> assumption

/-- Bits 7..6 of an opcode have four values (R93). -/
theorem topCases {motive : BitVec 2 → Prop} (zero : motive 0) (one : motive 1) (two : motive 2)
    (three : motive 3) (t : BitVec 2) : motive t := by
  have ht : t = 0 ∨ t = 1 ∨ t = 2 ∨ t = 3 := by
    revert t; decide
  rcases ht with rfl | rfl | rfl | rfl <;> assumption

theorem eq_code_of_operand8OfCode {k : BitVec 3} {r : Reg8} (h : operand8OfCode k = .reg r) :
    k = r.code := by
  cases k using codeCases <;> cases h <;> rfl

theorem eq_six_of_operand8OfCode {k : BitVec 3} (h : operand8OfCode k = .ind) : k = 6 := by
  cases k using codeCases <;> cases h
  rfl

/-- What holds of the r8 form at every register's code, and of the `[HL]` form at code 6, holds of the row
at every code (R94). -/
theorem pick8_of_forms {motive : BitVec 3 → Instr → Prop} {onReg : Reg8 → Instr} {onInd : Instr}
    (reg : ∀ r, motive r.code (onReg r)) (ind : motive 6 onInd) (k : BitVec 3) :
    motive k (pick8 k onReg onInd) := by
  unfold pick8
  split
  · next r h => exact eq_code_of_operand8OfCode h ▸ reg r
  · next h => exact eq_six_of_operand8OfCode h ▸ ind

/-- An opcode is its fields: bits 7..6, 5..3 and 2..0 (R93). -/
theorem opcode3_fields (b : Byte) :
    opcode3 (b.extractLsb' 6 2) (b.extractLsb' 3 3) (b.extractLsb' 0 3) = b := by
  unfold opcode3
  have hhigh : b.extractLsb' 6 2 ++ b.extractLsb' 3 3 = b.extractLsb' 3 5 :=
    BitVec.extractLsb'_append_extractLsb'_eq_extractLsb' rfl
  have hall : b.extractLsb' 3 5 ++ b.extractLsb' 0 3 = b.extractLsb' 0 8 :=
    BitVec.extractLsb'_append_extractLsb'_eq_extractLsb' rfl
  exact (congrArg (· ++ b.extractLsb' 0 3) hhigh).trans (hall.trans BitVec.extractLsb'_eq_self)

/-! ## The encoder on each of the decoder's maps (R99, R100)

An opcode whose row is the same for r8 and `[HL]` operands is taken by its register code; the other rows
are read off the map one by one, the immediate bytes left free. -/

/-- Opcodes 00yyyzzz. -/
theorem encode_decodeBlock0 (y z : BitVec 3) (w : Word) :
    encode (decodeBlock0 y z (lo8 w) w) =
      [opcode3 0 y z, lo8 w, hi8 w].take (instrLength (opcode3 0 y z)) := by
  cases z using codeCases <;> cases y using codeCases <;> rfl

/-- Opcodes 01dddsss. -/
theorem encode_decodeBlock1 (d s : BitVec 3) : encode (decodeBlock1 d s) = [opcode3 1 d s] := by
  unfold decodeBlock1
  split
  · next hd hs => rw [eq_code_of_operand8OfCode hd, eq_code_of_operand8OfCode hs]; rfl
  · next hd hs => rw [eq_code_of_operand8OfCode hd, eq_six_of_operand8OfCode hs]; rfl
  · next hd hs => rw [eq_six_of_operand8OfCode hd, eq_code_of_operand8OfCode hs]; rfl
  · next hd hs => rw [eq_six_of_operand8OfCode hd, eq_six_of_operand8OfCode hs]; rfl

/-- Opcodes 10yyyzzz. -/
theorem encode_decodeBlock2 (y z : BitVec 3) : encode (decodeBlock2 y z) = [opcode3 2 y z] := by
  cases y using codeCases <;>
    exact pick8_of_forms (motive := fun k i => encode i = [opcode3 2 _ k]) (fun _ => rfl) rfl z

/-- Opcodes 01dddsss and 10yyyzzz have no immediate. -/
theorem instrLength_block1 (d s : BitVec 3) : instrLength (opcode3 1 d s) = 1 := by
  revert d s; decide

theorem instrLength_block2 (y z : BitVec 3) : instrLength (opcode3 2 y z) = 1 := by
  revert y z; decide

/-- The `CB` map, by the fields of its byte. -/
theorem encode_decodeCb (b : Byte) : encode (decodeCb b) = [0xCB, b] := by
  suffices h : encode (decodeCb b) =
      [0xCB, opcode3 (b.extractLsb' 6 2) (b.extractLsb' 3 3) (b.extractLsb' 0 3)] by
    rwa [opcode3_fields] at h
  unfold decodeCb
  generalize b.extractLsb' 6 2 = t, b.extractLsb' 3 3 = y, b.extractLsb' 0 3 = z
  cases t using topCases with
  | zero =>
    cases y using codeCases <;>
      exact pick8_of_forms (motive := fun k i => encode i = [0xCB, opcode3 0 _ k]) (fun _ => rfl) rfl z
  | one | two | three =>
    exact pick8_of_forms (motive := fun k i => encode i = [0xCB, opcode3 _ y k]) (fun _ => rfl) rfl z

/-- Opcodes 11yyyzzz; $CB is the one byte with a map of its own. -/
theorem encode_decodeBlock3 (y z : BitVec 3) (w : Word) :
    encode (decodeBlock3 y z (lo8 w) w) =
      [opcode3 3 y z, lo8 w, hi8 w].take (instrLength (opcode3 3 y z)) := by
  cases z using codeCases with
  | three =>
    cases y using codeCases with
    | one => exact encode_decodeCb (lo8 w)
    | _ => rfl
  | _ => cases y using codeCases <;> rfl

/-- An instruction read from three bytes is encoded as those of them it has: no bit of them is dropped. -/
theorem encode_decodeBytes (b0 b1 b2 : Byte) :
    encode (decodeBytes b0 b1 b2) = [b0, b1, b2].take (instrLength b0) := by
  have hb0 := opcode3_fields b0
  have hlo := lo8_joinBytes b2 b1
  have hhi := hi8_joinBytes b2 b1
  unfold decodeBytes
  generalize b0.extractLsb' 6 2 = t, b0.extractLsb' 3 3 = y, b0.extractLsb' 0 3 = z at *
  generalize joinBytes b2 b1 = w at *
  subst hb0 hlo hhi
  cases t using topCases with
  | zero => exact encode_decodeBlock0 y z w
  | one => rw [instrLength_block1]; exact encode_decodeBlock1 y z
  | two => rw [instrLength_block2]; exact encode_decodeBlock2 y z
  | three => exact encode_decodeBlock3 y z w

/-! ## Byte lists -/

/-- A byte list the decoder accepts is an instruction's bytes, as many as byte 0 says, and the rest; the
bytes the instruction has not do not matter. -/
theorem decode_eq_ok {l rest : List Byte} {i : Instr} (h : decode l = .ok (i, rest)) :
    ∃ b0 b1 b2, i = decodeBytes b0 b1 b2 ∧ l = [b0, b1, b2].take (instrLength b0) ++ rest := by
  unfold decode at h
  split at h
  · cases h
  · next b0 _ =>
    split at h
    · next hlen => cases h; exact ⟨b0, 0, 0, rfl, by rw [hlen]; rfl⟩
    · next b1 _ hlen => cases h; exact ⟨b0, b1, 0, rfl, by rw [hlen]; rfl⟩
    · next b1 b2 _ hlen => cases h; exact ⟨b0, b1, b2, rfl, by rw [hlen]; rfl⟩
    · cases h

/-- Settles O2: the encoder gives back the bytes the decoder took. -/
theorem encodeOfDecode : Obligations.EncodeOfDecode := by
  intro l rest i h
  obtain ⟨b0, b1, b2, rfl, rfl⟩ := decode_eq_ok h
  rw [encode_decodeBytes]

/-- Settles O1: the rows by the fields they have in their opcode: pair, condition, register, bit or RST
code; an n16 comes back from its two bytes. -/
theorem decodeOfEncode : Obligations.DecodeOfEncode := by
  intro i rest
  cases i with
  | ldSpN16 n | ldN16Sp n | jp n | call n | ldN16A n | ldAN16 n =>
    conv_rhs => rw [← joinBytes_hi8_lo8 n]
    rfl
  | ldR16N16 p n =>
    conv_rhs => rw [← joinBytes_hi8_lo8 n]
    cases p <;> rfl
  | jpCc cc n | callCc cc n =>
    conv_rhs => rw [← joinBytes_hi8_lo8 n]
    cases cc <;> rfl
  | incR16 p | decR16 p | addHlR16 p | popR16 p | pushR16 p => cases p <;> rfl
  | jrCc cc | retCc cc => cases cc <;> rfl
  | incR8 r | decR8 r | ldR8N8 r | ldR8Ind r | ldIndR8 r | addR8 r | adcR8 r | subR8 r | sbcR8 r | andR8 r
  | xorR8 r | orR8 r | cpR8 r | rlcR8 r | rrcR8 r | rlR8 r | rrR8 r | slaR8 r | sraR8 r | swapR8 r
  | srlR8 r => cases r <;> rfl
  | ldR8R8 dst src => cases dst <;> cases src <;> rfl
  | rst u | bitInd u | resInd u | setInd u => cases u using codeCases <;> rfl
  | bitR8 u r | resR8 u r | setR8 u r => cases u using codeCases <;> cases r <;> rfl
  | _ => rfl

/-- Settles O3: each word is the encoding of the instruction it stands for. -/
theorem decodesSpecWords : Obligations.DecodesSpecWords :=
  ⟨decodeOfEncode (.ldR8R8 .b .c) [], decodeOfEncode (.ldR8N8 .a 0xFF) [],
    decodeOfEncode (.ldhN8A 0x4D) [], decodeOfEncode (.rlR8 .c) [], decodeOfEncode (.swapR8 .a) [],
    decodeOfEncode .rla [], decodeOfEncode (.pushR16 .de) [], decodeOfEncode .popAf [],
    decodeOfEncode .decInd [], decodeOfEncode (.addN8 0xC6) [], decodeOfEncode (.andR8 .l) [],
    decodeOfEncode (.bitR8 7 .h) [], decodeOfEncode (.setInd 7) [],
    decodeOfEncode (.ldR16N16 .hl 0xC000) [], decodeOfEncode (.ldHlSpE8 0x02) [],
    decodeOfEncode (.jp 0x0150) [], decodeOfEncode (.callCc .c 0x2000) [], decodeOfEncode (.rst 5) [],
    decodeOfEncode .halt [], decodeOfEncode (.stop 0x00) []⟩

/-! ## The unassigned bytes (R101) -/

/-- The values of byte 0 assigned to no instruction (R101). -/
def unassignedBytes : List Byte := [0xD3, 0xDB, 0xDD, 0xE3, 0xE4, 0xEB, 0xEC, 0xED, 0xF4, 0xFC, 0xFD]

/-- An unassigned row is encoded as its byte alone. -/
theorem encode_of_unassigned {i : Instr} {b : Byte} (h : i.unassigned? = some b) :
    encode i = [b] ∧ b ∈ unassignedBytes := by
  cases i with
  | illegalD3 | illegalDB | illegalDD | illegalE3 | illegalE4 | illegalEB | illegalEC | illegalED
  | illegalF4 | illegalFC | illegalFD =>
    cases h
    exact ⟨rfl, by decide⟩
  | _ => cases h

/-- The decoder answers the row of an unassigned byte for that byte 0 only. -/
theorem eq_of_unassigned_decodeBytes {b0 b1 b2 b : Byte}
    (h : (decodeBytes b0 b1 b2).unassigned? = some b) : b = b0 ∧ b ∈ unassignedBytes := by
  obtain ⟨hencode, hmem⟩ := encode_of_unassigned h
  rw [encode_decodeBytes] at hencode
  refine ⟨?_, hmem⟩
  cases hlen : instrLength b0 with
  | zero => simp [hlen] at hencode
  | succ n => simpa [hlen, eq_comm] using congrArg List.head? hencode

theorem decodeBytes_unassigned {b0 : Byte} (h : b0 ∈ unassignedBytes) (b1 b2 : Byte) :
    (decodeBytes b0 b1 b2).unassigned? = some b0 := by
  simp only [unassignedBytes, List.mem_cons, List.not_mem_nil, or_false] at h
  rcases h with rfl | rfl | rfl | rfl | rfl | rfl | rfl | rfl | rfl | rfl | rfl <;> rfl

/-- Settles O4: the eleven bytes have their rows by evaluation, and no other byte begins an unassigned
row's encoding. -/
theorem unassignedBytesAreEleven : Obligations.UnassignedBytesAreEleven := by
  intro b0 b1 b2
  show _ = if b0 ∈ unassignedBytes then some b0 else none
  split
  · next h => exact decodeBytes_unassigned h b1 b2
  · next h =>
    refine Option.eq_none_iff_forall_ne_some.2 fun b hb => ?_
    obtain ⟨rfl, hmem⟩ := eq_of_unassigned_decodeBytes hb
    exact h hmem

/-! ## Targets (R98, R106) -/

theorem signedValue_eq_toInt (e : Byte) : signedValue e = e.toInt := by
  rw [BitVec.toInt_eq_toNat_cond, signedValue]
  split <;> split <;> omega

/-- The machine's sign extension adds the signed byte (20_memory.md R63). -/
theorem displaced_eq (w : Word) (e : Byte) : displaced w e = w + sext16 e := by
  rw [displaced, signedValue_eq_toInt, BitVec.ofInt_add, BitVec.ofInt_natCast, BitVec.ofNat_toNat,
    BitVec.setWidth_eq]
  rfl

theorem toInt_sext16 (e : Byte) : (sext16 e).toInt = e.toInt :=
  BitVec.toInt_signExtend_of_le (by decide)

theorem lo8_sext16 (e : Byte) : lo8 (sext16 e) = e := by
  apply BitVec.eq_of_toInt_eq
  have h := toInt_sext16 e
  simp only [BitVec.toInt_eq_toNat_cond, lo8_toNat] at h ⊢
  omega

/-- A distance in -128..127 is the extension of its low byte. -/
theorem sext16_lo8 {d : Word} (hlow : -128 ≤ d.toInt) (hhigh : d.toInt ≤ 127) : sext16 (lo8 d) = d := by
  apply BitVec.eq_of_toInt_eq
  rw [toInt_sext16]
  simp only [BitVec.toInt_eq_toNat_cond, lo8_toNat] at *
  omega

/-- The assembler's byte for a distance is the one whose extension the distance is. -/
theorem jrOffset_eq_some_iff (addr target : Addr) (e : Byte) :
    jrOffset addr target = some e ↔ sext16 e = target - (addr + 2) := by
  simp only [jrOffset, Option.ite_none_right_eq_some, Option.some.injEq]
  constructor
  · rintro ⟨⟨hlow, hhigh⟩, rfl⟩
    exact sext16_lo8 hlow hhigh
  · intro h
    rw [← h, toInt_sext16, lo8_sext16]
    exact ⟨⟨e.le_toInt, Int.le_of_lt_add_one e.toInt_lt⟩, rfl⟩

theorem jrOffset_iff (addr target : Addr) (e : Byte) :
    jrOffset addr target = some e ↔ jrTarget addr e = target := by
  rw [jrOffset_eq_some_iff, eq_sub_iff_add_eq', jrTarget]

theorem rstField_iff (target : Addr) (t : BitVec 3) :
    rstField target = some t ↔ target.toNat = 8 * t.toNat := by
  simp only [rstField, Option.ite_none_right_eq_some, Option.some.injEq, ← BitVec.toNat_inj,
    BitVec.toNat_ofNat]
  omega

/-- Settles O5: a JR's byte is the one that extends to the distance, an RST's field the target's eighth. -/
theorem assemblerTargets : Obligations.AssemblerTargets :=
  ⟨fun addr e => (displaced_eq (addr + 2) e).symm, jrOffset_iff, rstField_iff⟩

end Sys2Proof
end

section
/-! SUPPORT. The identities the source states between instructions (30_encoding.md R107, 41_shifts8.md
R171). -/

namespace Sys2Proof.Machine

theorem reg8_a (s : State) : s.reg8 .a = s.a := rfl

/-! ## A byte added to itself -/

theorem add8_self_c (b : Byte) (cin : Bool) : (add8 b b cin).c = decide (b.toNat / 128 = 1) := by
  have hcin := cin.toNat_le
  simp only [add8, decide_eq_decide]
  omega

theorem add8_self_h (b : Byte) (cin : Bool) : (add8 b b cin).h = decide (b.toNat / 8 % 2 = 1) := by
  have hcin := cin.toNat_le
  simp only [add8, decide_eq_decide]
  omega

theorem add8_self_v_toNat (b : Byte) (cin : Bool) :
    (add8 b b cin).v.toNat = (2 * b.toNat + cin.toNat) % 256 := by
  rw [add8, BitVec.toNat_ofNat, Nat.two_mul]

/-- A rotate left through carry adds the byte and the carry to the byte (R171). -/
theorem sh_rl_eq_add8 (b : Byte) (cin : Bool) :
    sh .rl b cin = ((add8 b b cin).v, (add8 b b cin).c) := by
  have hv : b.extractLsb' 0 7 ++ BitVec.ofBool cin = (add8 b b cin).v := by
    have hcin := cin.toNat_le
    apply BitVec.eq_of_toNat_eq
    rw [add8_self_v_toNat, BitVec.toNat_append, ← Nat.shiftLeft_add_eq_or_of_lt (BitVec.isLt _),
      BitVec.extractLsb'_toNat, Nat.shiftRight_zero, BitVec.toNat_ofBool, Nat.shiftLeft_eq]
    omega
  have hc : b.getLsbD 7 = (add8 b b cin).c := by
    rw [add8_self_c, BitVec.getLsbD, Nat.testBit_eq_decide_div_mod_eq, decide_eq_decide]
    omega
  exact Prod.ext hv hc

/-- An arithmetic shift left adds the byte to itself (R171). -/
theorem sh_sla_eq_add8 (b : Byte) (cin : Bool) :
    sh .sla b cin = ((add8 b b false).v, (add8 b b false).c) :=
  sh_rl_eq_add8 b false

/-! ## The complement, and the target of RST -/

theorem complement_eq_xor (a : Byte) : 255 - a = a ^^^ 0xFF :=
  (BitVec.allOnes_sub_eq_not a).trans BitVec.xor_allOnes.symm

/-- A state that far back, with no double read left, has the same state after its `m` fetches. -/
theorem advance_of_nextPc_sub (s : State) (n m : Nat) :
    ({ s with pc := nextPc n s - BitVec.ofNat 16 m, haltBug := false } : State).advance m =
      s.advance n := by
  simp [State.advance, codeAddr_eq, nextPc]

/-- A call sees of the state only what the fetches leave. -/
theorem callTo_congr {s t : State} {n m : Nat} {taken : State → Bool} {target : Word}
    (h : s.advance n = t.advance m) : callTo n taken target s = callTo m taken target t := by
  rw [callTo, callTo, h]

theorem exec_rst (k : BitVec 3) (s : State) :
    exec (.rst k) s = callTo 1 (fun _ => true) (8 * k.zeroExtend 16) s := rfl

theorem exec_call (w : Word) (s : State) : exec (.call w) s = callTo 3 (fun _ => true) w s := rfl

theorem rst_target (k : BitVec 3) : 8 * k.zeroExtend 16 = BitVec.ofNat 16 (8 * k.toNat) := by
  rw [BitVec.ofNat_mul, BitVec.ofNat_toNat]
  rfl

/-- Settles O44: RLA and SLA shift as an addition of A to itself does; RST calls its target from the same
next address. -/
theorem sourceEquivalences : Obligations.SourceEquivalences := by
  refine fun s => ⟨⟨_, _, rfl, rfl, ?_⟩, ⟨_, _, rfl, rfl, ?_⟩, ⟨_, _, rfl, rfl, ?_⟩, fun k => ?_⟩
  · simp [reg8_a, sh_rl_eq_add8, add8_self_c, add8_self_v_toNat]
  · simp [reg8_a, sh_sla_eq_add8, add8_self_h]
  · refine ⟨complement_eq_xor s.a, ?_⟩
    simp
  · rw [exec_rst, exec_call, rst_target]
    exact callTo_congr (advance_of_nextPc_sub s 1 3).symm

end Sys2Proof.Machine
end

section
/-! SUPPORT. The vocabulary of one instruction's claim (30_encoding.md R104; 00_scope.md R14, R15): its
row of the opcode table, and its frame, followed through the operations an instruction's body is made
of. -/

namespace Sys2Proof.Machine

/-! ## Rows -/

/-- An instruction's bytes and M-cycles make its row: that the bytes decode to it holds of every
instruction (R104). -/
theorem Row.of_encode {i : Instr} {bytes : List Nat} {cycles : MCycles}
    (hbytes : (encode i).map BitVec.toNat = bytes) (hcycles : i.mCycles = cycles) :
    Row i bytes cycles :=
  ⟨hbytes, List.append_nil (encode i) ▸ decodeOfEncode i [], hcycles⟩

/-- The fields of a one-field opcode as digits (R93). -/
theorem opcode3_toNat (top : BitVec 2) (mid low : BitVec 3) :
    (opcode3 top mid low).toNat = 64 * top.toNat + 8 * mid.toNat + low.toNat := by
  have hmid := mid.isLt
  have hlow := low.isLt
  rw [opcode3, BitVec.toNat_append, BitVec.toNat_append, ← Nat.shiftLeft_add_eq_or_of_lt hmid,
    ← Nat.shiftLeft_add_eq_or_of_lt hlow, Nat.shiftLeft_eq, Nat.shiftLeft_eq]
  omega

/-! ## Registers -/

theorem RegsKept.trans {l m : List Reg8} {s t u : State} (h : RegsKept l s t) (g : RegsKept m t u) :
    RegsKept (l ++ m) s u := by
  intro r hr
  obtain ⟨hl, hm⟩ : r ∉ l ∧ r ∉ m := by simpa using hr
  exact (g r hm).trans (h r hl)

theorem regsKept_setReg8 (s : State) (r : Reg8) (v : Byte) : RegsKept [r] s (s.setReg8 r v) :=
  fun _ hq => setReg8_reg8_other s v (by simpa using hq)

theorem regsKept_advance (s : State) (n : Nat) : RegsKept [] s (s.advance n) :=
  fun r _ => advance_reg8 s n r

theorem regsKept_afterRead (s : State) (a : Addr) : RegsKept [] s (s.afterRead a) :=
  fun r _ => afterRead_reg8 s a r

theorem regsKept_writeByte (s : State) (a : Addr) (v : Byte) : RegsKept [] s (s.writeByte a v) :=
  fun r _ => writeByte_reg8 s a v r

/-! ## Frames -/

/-- Stores made where all bytes still read as before are stores made from there. -/
theorem Stores.of_nil {l : List (Addr × Byte)} {s t u : State} (hbefore : Stores [] s t)
    (hcontrol : ControlKept s t) (h : Stores l t u) : Stores l s u := by
  obtain ⟨-, hpeek, hie, hif, hkey1⟩ := hbefore
  obtain ⟨-, -, -, -, hspeed, hplatform, -⟩ := hcontrol
  obtain ⟨hfound, hpeek', hie', hif', hkey1'⟩ := h
  refine ⟨fun x hx => ?_, fun a ha => ?_, fun ha => ?_, fun ha => ?_, fun ha => ?_⟩
  · rw [hfound x hx, found_congr hspeed hplatform]
  · rw [hpeek' a ha, hpeek a (by simp)]
  · rw [hie' ha, hie (by simp)]
  · rw [hif' ha, hif (by simp)]
  · rw [hkey1' ha, hkey1 (by simp)]

/-- What a frame says is the flow past the instruction's bytes, its reads and its stores. -/
theorem frame_iff {n : Nat} {reads : List Addr} {stores : List (Addr × Byte)} {s t : State} :
    Frame n reads stores s t ↔ Straight n s t ∧ Reads reads s t ∧ Stores stores s t := by
  simp only [Frame, SpKept, ControlKept, PcPast, Straight, State.flow, Flow.mk.injEq, advance_pc,
    advance_sp, advance_ime, advance_imePending, advance_halted, advance_haltBug, advance_stopped,
    advance_doubleSpeed, advance_platform, advance_env, codeAddr_eq]
  tauto

namespace Frame

variable {n : Nat} {reads : List Addr} {stores : List (Addr × Byte)} {s t u : State}

/-- The frame sees of the state after only its flow, its bytes and the count of answers. -/
theorem congr (h : Frame n reads stores s t) (hflow : u.flow = t.flow) (hbytes : SameBytes t u)
    (hdraws : u.draws = t.draws) : Frame n reads stores s u := by
  rw [frame_iff] at h ⊢
  obtain ⟨hstraight, hreads, hstores⟩ := h
  exact ⟨hflow.trans hstraight, hdraws.trans hreads, hbytes.stores hstores⟩

theorem advance (s : State) (n : Nat) : Frame n [] [] s (s.advance n) :=
  frame_iff.2 ⟨rfl, rfl, SameBytes.stores_nil (.refl s)⟩

theorem setReg8 (h : Frame n reads stores s t) (r : Reg8) (v : Byte) :
    Frame n reads stores s (t.setReg8 r v) :=
  h.congr (setReg8_flow t r v) (by simp [SameBytes]) (setReg8_draws t r v)

theorem setReg16 (h : Frame n reads stores s t) (p : Reg16) (w : Word) :
    Frame n reads stores s (t.setReg16 p w) :=
  h.congr (setReg16_flow t p w) (by simp [SameBytes]) (setReg16_draws t p w)

/-- A data read before any store: one more address read. -/
theorem afterRead (h : Frame n reads [] s t) (a : Addr) :
    Frame n (reads ++ [a]) [] s (t.afterRead a) := by
  rw [frame_iff] at h ⊢
  obtain ⟨hstraight, hreads, hstores⟩ := h
  have hpeek : t.peek a = s.peek a := hstores.2.1 a (by simp)
  have hbytes : SameBytes t (t.afterRead a) := by simp [SameBytes]
  refine ⟨(afterRead_flow t a).trans hstraight, ?_, hbytes.stores hstores⟩
  rw [Reads, afterRead_draws, hreads, hpeek, List.countP_append, List.countP_singleton, Nat.add_assoc]

/-- The first store. -/
theorem writeByte (h : Frame n reads [] s t) (a : Addr) (v : Byte) :
    Frame n reads [(a, v)] s (t.writeByte a v) := by
  have hcontrol : ControlKept s t := h.2.1
  rw [frame_iff] at h ⊢
  obtain ⟨hstraight, hreads, hstores⟩ := h
  exact ⟨(writeByte_flow t a v).trans hstraight, (writeByte_draws t a v).trans hreads,
    hstores.of_nil hcontrol (stores_writeByte (.refl _))⟩

end Frame

end Sys2Proof.Machine
end

section
/-! SUPPORT. The 8-bit loads (40_loads8.md R120 to R138): each fetches, reads or stores at most one byte
and writes at most one register, and HL where it moves. -/

namespace Sys2Proof.Machine

/-- The high page's address as a number (R130 to R133). -/
theorem highPage_eq (n : Byte) : highPage n = BitVec.ofNat 16 (0xFF00 + n.toNat) := by
  rw [highPage, zext16, BitVec.ofNat_add, BitVec.ofNat_toNat]
  rfl

theorem add_one_toNat (w : Word) : (w + 1).toNat = (w.toNat + 1) % 65536 :=
  BitVec.toNat_add w 1

theorem sub_one_toNat (w : Word) : (w - 1).toNat = (w.toNat + 65535) % 65536 := by
  bv_omega

section Shapes

variable {i : Instr} {n : Nat} {r : Reg8} {v : Byte} {a : Addr} {w : Word} {s : State}

/-- An instruction that writes one register and does nothing else. -/
theorem writesR8_of_exec (h : exec i s = .next ((s.advance n).setReg8 r v)) :
    ∃ t, exec i s = .next t ∧
      t.reg8 r = v ∧ RegsKept [r] s t ∧ FlagsKept s t ∧ Frame n [] [] s t :=
  ⟨_, h, setReg8_reg8_same _ r v, (regsKept_advance s n).trans (regsKept_setReg8 _ r v),
    setReg8_f _ r v, (Frame.advance s n).setReg8 r v⟩

theorem loadsFrom_of_exec
    (h : exec i s = .next (((s.advance n).afterRead a).setReg8 r (s.readByte a))) :
    LoadsFrom i n r a s := by
  refine ⟨_, h, setReg8_reg8_same _ r _, ?_, by simp [FlagsKept],
    ((Frame.advance s n).afterRead a).setReg8 r _⟩
  exact ((regsKept_advance s n).trans (regsKept_afterRead _ a)).trans (regsKept_setReg8 _ r _)

theorem storesAt_of_exec (h : exec i s = .next ((s.advance n).writeByte a v)) :
    StoresAt i n a v s :=
  ⟨_, h, (regsKept_advance s n).trans (regsKept_writeByte _ a v), writeByte_f _ a v,
    (Frame.advance s n).writeByte a v⟩

/-- A load of A that then moves HL to `w`. -/
theorem loadMovesHl_of_exec (h : exec i s =
      .next ((((s.advance n).afterRead a).setReg8 .a (s.readByte a)).setReg16 .hl w)) :
    ∃ t, exec i s = .next t ∧ t.a = s.readByte a ∧ t.hl = w ∧
      RegsKept [.a, .h, .l] s t ∧ FlagsKept s t ∧ Frame n [a] [] s t := by
  refine ⟨_, h, by simp, setReg16_hl_same _ w, ?_, by simp [FlagsKept],
    (((Frame.advance s n).afterRead a).setReg8 .a _).setReg16 .hl w⟩
  exact (((regsKept_advance s n).trans (regsKept_afterRead _ a)).trans
    (regsKept_setReg8 _ .a _)).trans (regsKept_setReg16 _ .hl w)

/-- A store that then moves HL to `w`. -/
theorem storeMovesHl_of_exec
    (h : exec i s = .next (((s.advance n).writeByte a v).setReg16 .hl w)) :
    ∃ t, exec i s = .next t ∧ t.hl = w ∧
      RegsKept [.h, .l] s t ∧ FlagsKept s t ∧ Frame n [] [(a, v)] s t := by
  refine ⟨_, h, setReg16_hl_same _ w, ?_, by simp [FlagsKept],
    ((Frame.advance s n).writeByte a v).setReg16 .hl w⟩
  exact ((regsKept_advance s n).trans (regsKept_writeByte _ a v)).trans (regsKept_setReg16 _ .hl w)

end Shapes

/-- Settles O10: after the fetches one register is written, with the source's old value or n8. -/
theorem loadRegisterAndImmediate : Obligations.LoadRegisterAndImmediate := by
  refine ⟨fun dst r s => ⟨.of_encode ?_ rfl, ?_⟩, fun r n s => ⟨.of_encode ?_ rfl, ?_⟩⟩
  · simp [encode, opcode3_toNat]
  · rw [← advance_reg8 s 1 r]
    exact writesR8_of_exec rfl
  · simp [encode, opcode3_toNat]
  · exact writesR8_of_exec rfl

/-- Settles O11: the address is taken from the registers before the one read and the write. -/
theorem loadsFromMemory : Obligations.LoadsFromMemory := by
  intro r n w s
  refine ⟨⟨.of_encode ?_ rfl, loadsFrom_of_exec rfl⟩,
    ⟨.of_encode rfl rfl, loadsFrom_of_exec rfl⟩, ⟨.of_encode rfl rfl, loadsFrom_of_exec rfl⟩,
    ⟨.of_encode ?_ rfl, loadsFrom_of_exec rfl⟩, ⟨.of_encode rfl rfl, ?_⟩,
    ⟨.of_encode rfl rfl, ?_⟩⟩
  · simp [encode, opcode3_toNat]
  · simp [encode, lo8_toNat, hi8_toNat]
  · rw [← highPage_eq]
    exact loadsFrom_of_exec rfl
  · rw [← highPage_eq]
    exact loadsFrom_of_exec rfl

/-- Settles O12: after the fetches one byte is stored. -/
theorem storesToMemory : Obligations.StoresToMemory := by
  intro r n w s
  refine ⟨⟨.of_encode ?_ rfl, ?_⟩, ⟨.of_encode rfl rfl, storesAt_of_exec rfl⟩,
    ⟨.of_encode rfl rfl, storesAt_of_exec rfl⟩, ⟨.of_encode rfl rfl, storesAt_of_exec rfl⟩,
    ⟨.of_encode rfl rfl, ?_⟩, ⟨.of_encode rfl rfl, ?_⟩,
    ⟨.of_encode ?_ rfl, storesAt_of_exec rfl⟩⟩
  · simp [encode, opcode3_toNat]
  · rw [← advance_reg8 s 1 r]
    exact storesAt_of_exec rfl
  · rw [← highPage_eq]
    exact storesAt_of_exec rfl
  · rw [← highPage_eq]
    exact storesAt_of_exec rfl
  · simp [encode, lo8_toNat, hi8_toNat]

/-- Settles O13: the access is the plain load's or store's, and HL is written last. -/
theorem loadsThatMoveHL : Obligations.LoadsThatMoveHL := by
  intro s
  rw [← add_one_toNat, ← sub_one_toNat]
  simp only [BitVec.toNat_inj]
  exact ⟨⟨.of_encode rfl rfl, loadMovesHl_of_exec rfl⟩, ⟨.of_encode rfl rfl, loadMovesHl_of_exec rfl⟩,
    ⟨.of_encode rfl rfl, storeMovesHl_of_exec rfl⟩, ⟨.of_encode rfl rfl, storeMovesHl_of_exec rfl⟩⟩

end Sys2Proof.Machine
end

section
/-! SUPPORT. The 8-bit shifts and rotates (41_shifts8.md R150 to R170): `sh` as arithmetic, then what the
forms on A, on a register and on the byte at HL leave. -/

namespace Sys2Proof.Machine

/-! ## `sh` as arithmetic (R170) -/

/-- Two fields side by side are two digits. -/
theorem append_toNat {m n : Nat} (x : BitVec m) (y : BitVec n) :
    (x ++ y).toNat = x.toNat * 2 ^ n + y.toNat := by
  rw [BitVec.toNat_append, ← Nat.shiftLeft_add_eq_or_of_lt y.isLt, Nat.shiftLeft_eq]

theorem field_toNat (b : Byte) (start len : Nat) :
    (b.extractLsb' start len).toNat = b.toNat / 2 ^ start % 2 ^ len := by
  rw [BitVec.extractLsb'_toNat, Nat.shiftRight_eq_div_pow]

/-- The bit a left shift moves out: the carry of the byte added to itself. -/
theorem highBit_eq (b : Byte) : b.getLsbD 7 = decide (b.toNat / 128 = 1) :=
  (congrArg Prod.snd (sh_rl_eq_add8 b false)).trans (add8_self_c b false)

/-- The bit a right shift moves out. -/
theorem lowBit_eq (b : Byte) : b.getLsbD 0 = decide (b.toNat % 2 = 1) := by
  rw [BitVec.getLsbD, Nat.testBit_eq_decide_div_mod_eq, Nat.pow_zero, Nat.div_one]

/-- The table's two columns agree: the bits side by side are the arithmetic form. RL and SLA are
additions (R171); the others are put together from fields of the byte. -/
theorem shiftValue_eq_sh (op : ShiftOp) (b : Byte) (cin : Bool) :
    shiftValue op b.toNat cin.toNat = ((sh op b cin).1.toNat, (sh op b cin).2) := by
  have hb := b.isLt
  cases op with
  | rl => rw [sh_rl_eq_add8, add8_self_v_toNat, add8_self_c, shiftValue]
  | sla =>
    rw [sh_sla_eq_add8, add8_self_v_toNat, add8_self_c, shiftValue, Bool.toNat_false, Nat.add_zero]
  | rlc | rr | rrc | swap | sra | srl =>
    simp only [shiftValue, sh, append_toNat, field_toNat, highBit_eq, lowBit_eq, BitVec.toNat_ofBool,
      BitVec.ofNat_eq_ofNat, BitVec.toNat_ofNat, Prod.mk.injEq, and_true]
    omega

/-- The Z test on a byte is the test on its number. -/
theorem beq_zero_eq_decide (v : Byte) : (v == 0) = decide (v.toNat = 0) := by
  rw [Bool.beq_eq_decide_eq, decide_eq_decide, ← BitVec.toNat_inj]
  rfl

/-! ## Writing the flags -/

theorem regsKept_setFlags (s : State) (z n h c : Bool) : RegsKept [] s (s.setFlags z n h c) :=
  fun r _ => setFlags_reg8 s z n h c r

theorem Frame.setFlags {k : Nat} {reads : List Addr} {stores : List (Addr × Byte)} {s t : State}
    (hframe : Frame k reads stores s t) (z n h c : Bool) :
    Frame k reads stores s (t.setFlags z n h c) :=
  hframe.congr (setFlags_flow t z n h c) (.refl t) rfl

/-- The flags after a shift of `b`: Z per result, N = H = 0, the carry of `sh` (R154 to R169). -/
theorem flagsAre_shift (s : State) (op : ShiftOp) (b : Byte) (cin : Bool) :
    FlagsAre ((shiftValue op b.toNat cin.toNat).1 = 0) false false (shiftValue op b.toNat cin.toNat).2
      (s.setFlags ((sh op b cin).1 == 0) false false (sh op b cin).2) := by
  rw [shiftValue_eq_sh, beq_zero_eq_decide]
  exact flagsAre_setFlags s _ _ _ _

/-! ## The three forms -/

/-- A one-byte rotate of A: the fetch, A, the flags. -/
theorem rotatesA_of_exec {i : Instr} {op : ShiftOp} {s : State} (h : exec i s = rotateA op s) :
    RotatesA i op s := by
  rw [RotatesA, shiftValue_eq_sh]
  exact ⟨_, h, rfl, flagsAre_setFlags _ _ _ _ _,
    ((regsKept_advance s 1).trans (regsKept_setReg8 _ .a _)).trans (regsKept_setFlags _ _ _ _ _),
    ((Frame.advance s 1).setReg8 .a _).setFlags _ _ _ _⟩

theorem exec_shiftR8 (op : ShiftOp) (r : Reg8) (s : State) :
    exec (shiftR8 op r) s = .next (((s.advance 2).setReg8 r (sh op (s.reg8 r) s.flagC).1).setFlags
      ((sh op (s.reg8 r) s.flagC).1 == 0) false false (sh op (s.reg8 r) s.flagC).2) := by
  have hbody : exec (shiftR8 op r) s = shiftPlace op (.reg r) s := by cases op <;> rfl
  simp [hbody, shiftPlace]

theorem exec_shiftInd (op : ShiftOp) (s : State) :
    exec (shiftInd op) s = .next ((((s.advance 2).afterRead s.hl).writeByte s.hl
      (sh op (s.readByte s.hl) s.flagC).1).setFlags
        ((sh op (s.readByte s.hl) s.flagC).1 == 0) false false (sh op (s.readByte s.hl) s.flagC).2) := by
  have hbody : exec (shiftInd op) s = shiftPlace op .ind s := by cases op <;> rfl
  simp [hbody, shiftPlace]

theorem shiftR8_row (op : ShiftOp) (r : Reg8) :
    Row (shiftR8 op r) [0xCB, 8 * shiftNumber op + r.code.toNat] (.always 2) := by
  refine .of_encode ?_ ?_
  · cases op <;> simp [shiftR8, shiftNumber, encode, opcode3_toNat]
  · cases op <;> rfl

theorem shiftInd_row (op : ShiftOp) :
    Row (shiftInd op) [0xCB, 8 * shiftNumber op + 6] (.always 4) := by
  cases op <;> exact .of_encode rfl rfl

/-- Settles O14: each is the one-byte rotate of A by its shift. -/
theorem rotatesOfA : Obligations.RotatesOfA := fun _ =>
  ⟨⟨.of_encode rfl rfl, rotatesA_of_exec rfl⟩, ⟨.of_encode rfl rfl, rotatesA_of_exec rfl⟩,
    ⟨.of_encode rfl rfl, rotatesA_of_exec rfl⟩, ⟨.of_encode rfl rfl, rotatesA_of_exec rfl⟩⟩

/-- Settles O15: after the fetches the register and the flags are written with what `sh` gives. -/
theorem shiftsOfRegisters : Obligations.ShiftsOfRegisters := by
  refine fun op r s => ⟨shiftR8_row op r, _, exec_shiftR8 op r s,
    ⟨?_, flagsAre_shift _ op (s.reg8 r) s.flagC⟩, ?_,
    ((Frame.advance s 2).setReg8 r _).setFlags _ _ _ _⟩
  · rw [setFlags_reg8, setReg8_reg8_same, shiftValue_eq_sh]
  · exact ((regsKept_advance s 2).trans (regsKept_setReg8 _ r _)).trans (regsKept_setFlags _ _ _ _ _)

/-- Settles O16: the address is HL's for the read and the write, for no register is written. -/
theorem shiftsOfMemory : Obligations.ShiftsOfMemory := by
  refine fun op s => ⟨shiftInd_row op, _, exec_shiftInd op s,
    ⟨flagsAre_shift _ op (s.readByte s.hl) s.flagC, ?_⟩, ?_⟩
  · rw [shiftValue_eq_sh, BitVec.ofNat_toNat, BitVec.setWidth_eq]
    exact (((Frame.advance s 2).afterRead s.hl).writeByte s.hl _).setFlags _ _ _ _
  · exact (((regsKept_advance s 2).trans (regsKept_afterRead _ s.hl)).trans
      (regsKept_writeByte _ s.hl _)).trans (regsKept_setFlags _ _ _ _ _)

end Sys2Proof.Machine
end

section
/-! SUPPORT. The stack (42_stack.md R180 to R185): the frame of an instruction that moves SP, then what a
push and a pop leave, and that a pop on plain memory undoes a push. -/

namespace Sys2Proof.Machine

/-- The fields of an opcode with a pair code as digits, the pair's last (30_encoding.md R93). -/
theorem opcodePair_toNat (top p : BitVec 2) (low : BitVec 4) :
    (opcodePair top p low).toNat = 64 * top.toNat + low.toNat + 16 * p.toNat := by
  rw [opcodePair, append_toNat, append_toNat]
  omega

/-! ## Registers -/

theorem regsKept_push16 (s : State) (w : Word) : RegsKept [] s (s.push16 w) :=
  fun r _ => push16_reg8 s w r

theorem regsKept_afterPop (s : State) : RegsKept [] s s.afterPop :=
  fun r _ => afterPop_reg8 s r

/-- AF written leaves every r8 but A. -/
theorem regsKept_setAf (s : State) (w : Word) : RegsKept [.a] s (s.setAf w) := by
  intro r hr
  cases r with
  | a => exact absurd (List.mem_singleton.2 rfl) hr
  | b | c | d | e | h | l => rfl

/-! ## The bytes pushed and popped -/

theorem pushed_eq (s : State) (w : Word) :
    pushed s w = [(s.sp - 1, hi8 w), (s.sp - 2, lo8 w)] := by
  rw [pushed, hi8_eq, lo8_eq]

/-- AF is pushed as A and as F with its low bits 0 (R184; 10_state.md R21). -/
theorem pushed_af (s : State) :
    pushed s s.af = [(s.sp - 1, s.a), (s.sp - 2, BitVec.ofNat 8 (s.f.toNat / 16 * 16))] := by
  rw [pushed_eq, State.af, hi8_joinBytes, lo8_joinBytes, State.flagsReg, ← and_F0_toNat,
    BitVec.ofNat_toNat, BitVec.setWidth_eq]

/-- The word popped is the two bytes read, the low one first (R181). -/
theorem popWord_eq (s : State) : s.popWord = joinBytes s.popHigh s.popLow := rfl

/-- The fetches leave the two bytes a pop reads. -/
@[simp] theorem advance_popWord (s : State) (n : Nat) : (s.advance n).popWord = s.popWord := by
  simp [popWord_eq, State.popHigh, State.popLow, State.readByte]

/-! ## Frames that move SP -/

/-- What such a frame says is the flow past the instruction's bytes with SP moved, its reads and its
stores. -/
theorem frameSp_iff {n : Nat} {sp : Word} {reads : List Addr} {stores : List (Addr × Byte)}
    {s t : State} :
    FrameSp n sp reads stores s t ↔
      t.flow = { (s.advance n).flow with sp := sp } ∧ Reads reads s t ∧ Stores stores s t := by
  simp only [FrameSp, ControlKept, PcPast, State.flow, Flow.mk.injEq, advance_pc, advance_ime,
    advance_imePending, advance_halted, advance_haltBug, advance_stopped, advance_doubleSpeed,
    advance_platform, advance_env, codeAddr_eq]
  tauto

/-- SP written last. -/
theorem Frame.setSp {n : Nat} {reads : List Addr} {stores : List (Addr × Byte)} {s t : State}
    (h : Frame n reads stores s t) (w : Word) : FrameSp n w reads stores s (t.setSp w) := by
  obtain ⟨hstraight, hreads, hstores⟩ := frame_iff.1 h
  exact frameSp_iff.2 ⟨congrArg (fun f => { f with sp := w }) hstraight, hreads,
    SameBytes.stores (.refl t) hstores⟩

namespace FrameSp

variable {n : Nat} {sp : Word} {reads : List Addr} {stores : List (Addr × Byte)} {s t u : State}

/-- The frame sees of the state after only its flow, its bytes and the count of answers. -/
theorem congr (h : FrameSp n sp reads stores s t) (hflow : u.flow = t.flow) (hbytes : SameBytes t u)
    (hdraws : u.draws = t.draws) : FrameSp n sp reads stores s u := by
  rw [frameSp_iff] at h ⊢
  obtain ⟨hmoved, hreads, hstores⟩ := h
  exact ⟨hflow.trans hmoved, hdraws.trans hreads, hbytes.stores hstores⟩

theorem setReg16 (h : FrameSp n sp reads stores s t) (p : Reg16) (w : Word) :
    FrameSp n sp reads stores s (t.setReg16 p w) :=
  h.congr (setReg16_flow t p w) (by simp [SameBytes]) (setReg16_draws t p w)

theorem setAf (h : FrameSp n sp reads stores s t) (w : Word) :
    FrameSp n sp reads stores s (t.setAf w) :=
  h.congr (setAf_flow t w) (.refl t) (setAf_draws t w)

/-- A push after the fetches: SP down by 2, two bytes stored, nothing read (R180). -/
theorem push16 (s : State) (n : Nat) (w : Word) :
    FrameSp n (s.sp - 2) [] (pushed s w) s ((s.advance n).push16 w) :=
  frameSp_iff.2 ⟨push16_flow _ w, push16_draws _ w,
    stores_push16 (u := s.advance n) rfl (.refl s) rfl (.refl _)⟩

/-- A pop after the fetches: SP up by 2, two bytes read, nothing stored (R181). -/
theorem afterPop (s : State) (n : Nat) :
    FrameSp n (s.sp + 2) s.popReads [] s (s.advance n).afterPop :=
  (((Frame.advance s n).afterRead s.sp).afterRead (s.sp + 1)).setSp (s.sp + 2)

end FrameSp

/-! ## PUSH and POP -/

/-- A one-byte instruction that pushes `w`. -/
theorem pushes_of_exec {i : Instr} {w : Word} {s : State}
    (h : exec i s = .next ((s.advance 1).push16 w)) :
    ∃ t, exec i s = .next t ∧
      RegsKept [] s t ∧ FlagsKept s t ∧ FrameSp 1 (s.sp - 2) [] (pushed s w) s t :=
  ⟨_, h, (regsKept_advance s 1).trans (regsKept_push16 _ w), push16_f _ w, .push16 s 1 w⟩

/-- Settles O17: after the fetch the pair is pushed; for AF the two bytes are A and F's high half. -/
theorem pushStores : Obligations.PushStores := by
  refine ⟨fun p s => ⟨.of_encode ?_ rfl, ?_⟩, fun s => ⟨.of_encode rfl rfl, ?_⟩⟩
  · simp [encode, opcodePair_toNat]
  · rw [← advance_reg16 s 1 p]
    exact pushes_of_exec rfl
  · rw [← pushed_af, ← advance_af s 1]
    exact pushes_of_exec rfl

theorem exec_popR16 (p : Reg16) (s : State) :
    exec (.popR16 p) s = .next ((s.advance 1).afterPop.setReg16 p s.popWord) := by
  rw [← advance_popWord s 1]
  rfl

theorem exec_popAf (s : State) : exec .popAf s = .next ((s.advance 1).afterPop.setAf s.popWord) := by
  rw [← advance_popWord s 1]
  rfl

/-- Settles O18: after the fetch and the pop, the pair is written with the word popped. -/
theorem popLoads : Obligations.PopLoads := by
  refine ⟨fun p s => ⟨.of_encode ?_ rfl, _, exec_popR16 p s, ?_, ?_, ?_, ?_⟩,
    fun s => ⟨.of_encode rfl rfl, _, exec_popAf s, ?_, ?_, ?_, ?_⟩⟩
  · simp [encode, opcodePair_toNat]
  · rw [setReg16_reg16_same, popWord_eq, joinBytes_toNat]
  · exact ((regsKept_advance s 1).trans (regsKept_afterPop _)).trans (regsKept_setReg16 _ p _)
  · simp [FlagsKept]
  · exact (FrameSp.afterPop s 1).setReg16 p _
  · rw [setAf_a, popWord_eq, hi8_joinBytes]
  · rw [setAf_f, popWord_eq, lo8_joinBytes, and_F0_toNat]
  · exact ((regsKept_advance s 1).trans (regsKept_afterPop _)).trans (regsKept_setAf _ _)
  · exact (FrameSp.afterPop s 1).setAf _

/-! ## A pop after a push -/

/-- Plain memory holds the byte stored there (20_memory.md R62). -/
theorem found_of_isPlain {s : State} {a : Addr} (h : s.isPlain a = true) (v : Byte) :
    s.found a v = some v := by
  obtain ⟨hcpu, hram⟩ := Bool.and_eq_true_iff.1 h
  obtain ⟨⟨hie, hif⟩, hkey1⟩ : (a ≠ 0xFFFF ∧ a ≠ 0xFF0F) ∧ a ≠ 0xFF4D := by
    simpa [isCpuRegister, ieAddr, ifAddr, key1Addr] using hcpu
  rw [State.found, if_neg hie, if_neg hif, if_neg hkey1, if_pos hram]

/-- After a push on plain memory the word at SP is the one pushed, and reading it changes nothing
(R180). -/
theorem readWord_push16 {s : State} {w : Word} (hhigh : s.isPlain (s.sp - 1) = true)
    (hlow : s.isPlain (s.sp - 2) = true) :
    (s.push16 w).readWord (s.push16 w).sp = w ∧
      (s.push16 w).afterReadWord (s.push16 w).sp = s.push16 w := by
  have hstored : ∀ x ∈ pushed s w, (s.push16 w).peek x.1 = s.found x.1 x.2 :=
    (stores_push16 rfl (.refl s) rfl (.refl _)).1
  rw [pushed_eq] at hstored
  have hlo : (s.push16 w).peek (s.sp - 2) = some (lo8 w) :=
    (hstored (s.sp - 2, lo8 w) (by simp)).trans (found_of_isPlain hlow _)
  have hhi : (s.push16 w).peek (s.sp - 2 + 1) = some (hi8 w) := by
    rw [show s.sp - 2 + 1 = s.sp - 1 by bv_omega]
    exact (hstored (s.sp - 1, hi8 w) (by simp)).trans (found_of_isPlain hhigh _)
  obtain ⟨hword, hkept⟩ := readWord_of_peek hlo hhi
  rw [push16_sp, hword, joinBytes_hi8_lo8]
  exact ⟨rfl, hkept⟩

/-- Settles O9: the two bytes are read back without the environment, and SP goes down and up by 2. -/
theorem popReturnsPushed : Obligations.PopReturnsPushed := by
  intro s w hhigh hlow
  obtain ⟨hword, hkept⟩ := readWord_push16 (w := w) hhigh hlow
  have hsp : s.sp - 2 + 2 = s.sp := by bv_omega
  refine ⟨hword, ?_, hword⟩
  rw [State.afterPop, hkept, push16_sp, hsp, State.setSp]

end Sys2Proof.Machine
end

section
/-! SUPPORT. Increments and decrements (43_incdec.md R190 to R197): a step by one as an addition, then what
the forms on a register, on the byte at HL, on a pair and on SP leave. -/

namespace Sys2Proof.Machine

/-! ## A step by one, as an addition -/

theorem add_one_eq_ofNat {w : Nat} (x : BitVec w) : x + 1 = BitVec.ofNat w (x.toNat + 1) := by
  rw [BitVec.ofNat_add, BitVec.ofNat_toNat, BitVec.setWidth_eq]
  rfl

/-- Less one is plus the number of all ones. -/
theorem sub_one_eq_ofNat {w : Nat} (x : BitVec w) : x - 1 = BitVec.ofNat w (x.toNat + (2 ^ w - 1)) := by
  rw [← BitVec.toNat_allOnes, BitVec.ofNat_add, BitVec.ofNat_toNat, BitVec.ofNat_toNat,
    BitVec.setWidth_eq, BitVec.setWidth_eq, ← BitVec.neg_one_eq_allOnes]
  exact BitVec.sub_eq_add_neg x 1

/-! ## What the forms leave -/

theorem regsKept_setSp (s : State) (w : Word) : RegsKept [] s (s.setSp w) :=
  fun r _ => setSp_reg8 s w r

/-- Z of the byte of `m` is the test on `m` mod 256. -/
theorem flagsAre_setFlags_ofNat (s : State) (m : Nat) (sub half c : Bool) :
    FlagsAre (m % 256 = 0) sub half c (s.setFlags (BitVec.ofNat 8 m == 0) sub half c) := by
  rw [beq_zero_eq_decide, BitVec.toNat_ofNat]
  exact flagsAre_setFlags s _ _ _ _

section Shapes

variable {i : Instr} {n m : Nat} {r : Reg8} {p : Reg16} {v : Byte} {w : Word} {sub half c : Bool}
  {s : State}

/-- An instruction that writes the byte of `m` to a register, and the flags with Z of that byte. -/
theorem writesR8AndFlags_of_exec (hv : v = BitVec.ofNat 8 m)
    (h : exec i s = .next (((s.advance n).setReg8 r v).setFlags (v == 0) sub half c)) :
    ∃ t, exec i s = .next t ∧
      ((t.reg8 r).toNat = m % 256 ∧ FlagsAre (m % 256 = 0) sub half c t) ∧
      RegsKept [r] s t ∧ Frame n [] [] s t := by
  subst hv
  refine ⟨_, h, ⟨?_, flagsAre_setFlags_ofNat _ m sub half c⟩, ?_,
    ((Frame.advance s n).setReg8 r _).setFlags _ _ _ _⟩
  · rw [setFlags_reg8, setReg8_reg8_same, BitVec.toNat_ofNat]
  · exact ((regsKept_advance s n).trans (regsKept_setReg8 _ r _)).trans (regsKept_setFlags _ _ _ _ _)

/-- An instruction that reads the byte at HL and stores the byte of `m` there, and the flags with Z of
that byte. -/
theorem rewritesIndAndFlags_of_exec (hv : v = BitVec.ofNat 8 m)
    (h : exec i s =
      .next ((((s.advance n).afterRead s.hl).writeByte s.hl v).setFlags (v == 0) sub half c)) :
    ∃ t, exec i s = .next t ∧
      (FlagsAre (m % 256 = 0) sub half c t ∧ Frame n [s.hl] [(s.hl, BitVec.ofNat 8 m)] s t) ∧
      RegsKept [] s t := by
  subst hv
  refine ⟨_, h, ⟨flagsAre_setFlags_ofNat _ m sub half c,
    (((Frame.advance s n).afterRead s.hl).writeByte s.hl _).setFlags _ _ _ _⟩, ?_⟩
  exact (((regsKept_advance s n).trans (regsKept_afterRead _ s.hl)).trans
    (regsKept_writeByte _ s.hl _)).trans (regsKept_setFlags _ _ _ _ _)

/-- An instruction that writes one pair and does nothing else. -/
theorem writesR16_of_exec (h : exec i s = .next ((s.advance n).setReg16 p w)) :
    ∃ t, exec i s = .next t ∧
      t.reg16 p = w ∧ RegsKept (pairRegs p) s t ∧ FlagsKept s t ∧ Frame n [] [] s t :=
  ⟨_, h, setReg16_reg16_same _ p w, (regsKept_advance s n).trans (regsKept_setReg16 _ p w),
    setReg16_f _ p w, (Frame.advance s n).setReg16 p w⟩

/-- An instruction that writes SP and does nothing else. -/
theorem writesSp_of_exec (h : exec i s = .next ((s.advance n).setSp w)) :
    ∃ t, exec i s = .next t ∧ RegsKept [] s t ∧ FlagsKept s t ∧ FrameSp n w [] [] s t :=
  ⟨_, h, (regsKept_advance s n).trans (regsKept_setSp _ w), setSp_f _ w, (Frame.advance s n).setSp w⟩

end Shapes

/-! ## INC and DEC of a byte -/

theorem exec_incR8 (r : Reg8) (s : State) :
    exec (.incR8 r) s = .next (((s.advance 1).setReg8 r (s.reg8 r + 1)).setFlags
      (s.reg8 r + 1 == 0) false ((s.reg8 r).toNat % 16 == 15) s.flagC) := by
  rw [← advance_reg8 s 1 r]
  rfl

theorem exec_incInd (s : State) :
    exec .incInd s = .next ((((s.advance 1).afterRead s.hl).writeByte s.hl
      (s.readByte s.hl + 1)).setFlags
        (s.readByte s.hl + 1 == 0) false ((s.readByte s.hl).toNat % 16 == 15) s.flagC) := by
  have hbody : exec .incInd s = incPlace .ind s := rfl
  simp [hbody, incPlace]

theorem exec_decR8 (r : Reg8) (s : State) :
    exec (.decR8 r) s = .next (((s.advance 1).setReg8 r (s.reg8 r - 1)).setFlags
      (s.reg8 r - 1 == 0) true ((s.reg8 r).toNat % 16 == 0) s.flagC) := by
  rw [← advance_reg8 s 1 r]
  rfl

theorem exec_decInd (s : State) :
    exec .decInd s = .next ((((s.advance 1).afterRead s.hl).writeByte s.hl
      (s.readByte s.hl - 1)).setFlags
        (s.readByte s.hl - 1 == 0) true ((s.readByte s.hl).toNat % 16 == 0) s.flagC) := by
  have hbody : exec .decInd s = decPlace .ind s := rfl
  simp [hbody, decPlace]

/-- Settles O19: the new byte is the old number plus 1, and H is the model's test on the old one. -/
theorem incrementBytes : Obligations.IncrementBytes := by
  refine ⟨fun r s => ⟨.of_encode ?_ rfl, writesR8AndFlags_of_exec (add_one_eq_ofNat _) (exec_incR8 r s)⟩,
    fun s => ⟨.of_encode rfl rfl, rewritesIndAndFlags_of_exec (add_one_eq_ofNat _) (exec_incInd s)⟩⟩
  simp [encode, opcode3_toNat]

/-- Settles O20: the new byte is the old number plus 255, and H is the model's test on the old one. -/
theorem decrementBytes : Obligations.DecrementBytes := by
  refine ⟨fun r s => ⟨.of_encode ?_ rfl, writesR8AndFlags_of_exec (sub_one_eq_ofNat _) (exec_decR8 r s)⟩,
    fun s => ⟨.of_encode rfl rfl, rewritesIndAndFlags_of_exec (sub_one_eq_ofNat _) (exec_decInd s)⟩⟩
  simp [encode, opcode3_toNat]

/-! ## INC and DEC of a word -/

theorem exec_incR16 (p : Reg16) (s : State) :
    exec (.incR16 p) s = .next ((s.advance 1).setReg16 p (s.reg16 p + 1)) := by
  rw [← advance_reg16 s 1 p]
  rfl

theorem exec_decR16 (p : Reg16) (s : State) :
    exec (.decR16 p) s = .next ((s.advance 1).setReg16 p (s.reg16 p - 1)) := by
  rw [← advance_reg16 s 1 p]
  rfl

/-- Settles O21: after the fetch the pair or SP is written, and no flag. -/
theorem incrementWords : Obligations.IncrementWords := by
  refine ⟨fun p s => ⟨⟨.of_encode ?_ rfl, ?_⟩, ⟨.of_encode ?_ rfl, ?_⟩⟩,
    fun s => ⟨⟨.of_encode rfl rfl, ?_⟩, ⟨.of_encode rfl rfl, ?_⟩⟩⟩
  · simp [encode, opcodePair_toNat, Nat.add_comm]
  · rw [← add_one_toNat]
    simpa only [BitVec.toNat_inj] using writesR16_of_exec (exec_incR16 p s)
  · simp [encode, opcodePair_toNat, Nat.add_comm]
  · rw [← sub_one_toNat]
    simpa only [BitVec.toNat_inj] using writesR16_of_exec (exec_decR16 p s)
  · rw [← add_one_eq_ofNat]
    exact writesSp_of_exec rfl
  · rw [show s.sp.toNat + 65535 = s.sp.toNat + (2 ^ 16 - 1) from rfl, ← sub_one_eq_ofNat]
    exact writesSp_of_exec rfl

end Sys2Proof.Machine
end

section
/-! SUPPORT. 8-bit arithmetic on A (44_alu8.md R200 to R215): the operand forms as rows and as reads, then
`add8` and `sub8` with what the forms that write A, and the comparison, leave. -/

namespace Sys2Proof.Machine

/-! ## Operand forms -/

/-- The encoding of the operation on A whose code among the eight is `k` (30_encoding.md R94, R99). -/
def aluEncoding (k : BitVec 3) : Src8 → List Byte
  | .reg r => [opcode3 0b10 k r.code]
  | .imm n => [opcode3 0b11 k 6, n]
  | .ind => [opcode3 0b10 k 6]

theorem aluEncoding_toNat (k : BitVec 3) (src : Src8) :
    (aluEncoding k src).map BitVec.toNat = aluBytes k.toNat src := by
  cases src with
  | reg r | imm n | ind => simp [aluEncoding, aluBytes, opcode3_toNat]

/-- The row of an operation on A, from its encoding. -/
theorem Row.of_aluEncoding {i : Instr} {src : Src8} (k : BitVec 3)
    (hbytes : encode i = aluEncoding k src) (hcycles : i.mCycles = .always (aluCycles src)) :
    Row i (aluBytes k.toNat src) (.always (aluCycles src)) :=
  .of_encode (hbytes ▸ aluEncoding_toNat k src) hcycles

@[simp] theorem advance_src8 (s : State) (n : Nat) (src : Src8) : (s.advance n).src8 src = s.src8 src := by
  cases src with
  | reg r => exact advance_reg8 s n r
  | imm v => rfl
  | ind => exact advance_readByte s n s.hl

theorem regsKept_afterSrc8 (s : State) (src : Src8) : RegsKept [] s (s.afterSrc8 src) := by
  cases src with
  | reg | imm => exact fun _ _ => rfl
  | ind => exact regsKept_afterRead s s.hl

/-- The fetches, then the argument's one read where it is at HL. -/
theorem Frame.afterSrc8 (s : State) (n : Nat) (src : Src8) :
    Frame n (s.aluReads src) [] s ((s.advance n).afterSrc8 src) := by
  cases src with
  | reg | imm => exact Frame.advance s n
  | ind => exact (Frame.advance s n).afterRead s.hl

/-! ## `add8` and `sub8` as arithmetic (R215) -/

theorem add8_v_toNat (a b : Byte) (cin : Bool) :
    (add8 a b cin).v.toNat = (a.toNat + b.toNat + cin.toNat) % 256 :=
  BitVec.toNat_ofNat ..

theorem sub8_v_toNat (a b : Byte) (cin : Bool) :
    ((sub8 a b cin).v.toNat : Int) = ((a.toNat : Int) - b.toNat - cin.toNat) % 256 := by
  rw [sub8, BitVec.toNat_ofInt]
  exact Int.toNat_of_nonneg (Int.emod_nonneg _ (by decide))

/-- The Z test of a subtraction is the test on the difference mod 256. -/
theorem sub8_v_beq_zero (a b : Byte) (cin : Bool) :
    ((sub8 a b cin).v == 0) = decide (((a.toNat : Int) - b.toNat - cin.toNat) % 256 = 0) := by
  rw [beq_zero_eq_decide, decide_eq_decide, ← sub8_v_toNat, Int.natCast_eq_zero]

/-- Without a borrow in, the difference is 0 exactly for equal bytes. -/
theorem sub8_v_beq_zero_eq (a b : Byte) : ((sub8 a b false).v == 0) = decide (b = a) := by
  rw [sub8_v_beq_zero, decide_eq_decide, Bool.toNat_false, ← BitVec.toNat_inj]
  omega

/-! ## What the forms leave -/

section Shapes

variable {i : Instr} {src : Src8} {subtract cin : Bool} {f : Byte → Byte → Bool → Result8} {r : Result8}
  {s : State}

/-- An operation on A whose result is `r`: A and the four flags are written. -/
theorem writesA_of_exec (h : exec i s = aluA (aluSize src) src subtract f s)
    (hr : f s.a (s.src8 src) s.flagC = r) :
    ∃ t, exec i s = .next t ∧ (t.a = r.v ∧ FlagsAre (r.v == 0) subtract r.h r.c t) ∧
      RegsKept [.a] s t ∧ Frame (aluSize src) (s.aluReads src) [] s t := by
  subst hr
  rw [aluA, advance_src8, advance_a, advance_flagC] at h
  refine ⟨_, h, ⟨rfl, flagsAre_setFlags _ _ _ _ _⟩, ?_,
    ((Frame.afterSrc8 s _ src).setReg8 .a _).setFlags _ _ _ _⟩
  exact (((regsKept_advance s _).trans (regsKept_afterSrc8 _ src)).trans
    (regsKept_setReg8 _ .a _)).trans (regsKept_setFlags _ _ _ _ _)

theorem addsToA_of_exec (h : exec i s = aluA (aluSize src) src false f s)
    (hf : f s.a (s.src8 src) s.flagC = add8 s.a (s.src8 src) cin) : AddsToA i src cin s := by
  have hwrites := writesA_of_exec h hf
  rw [beq_zero_eq_decide, add8_v_toNat] at hwrites
  obtain ⟨t, hexec, ⟨ha, hflags⟩, hframe⟩ := hwrites
  exact ⟨t, hexec, ⟨ha ▸ add8_v_toNat _ _ cin, hflags⟩, hframe⟩

theorem subsFromA_of_exec (h : exec i s = aluA (aluSize src) src true f s)
    (hf : f s.a (s.src8 src) s.flagC = sub8 s.a (s.src8 src) cin) : SubsFromA i src cin s := by
  have hwrites := writesA_of_exec h hf
  rw [sub8_v_beq_zero] at hwrites
  obtain ⟨t, hexec, ⟨ha, hflags⟩, hframe⟩ := hwrites
  exact ⟨t, hexec, ⟨ha ▸ sub8_v_toNat _ _ cin, hflags⟩, hframe⟩

/-- A comparison: only the flags are written, Z by equality. -/
theorem compares_of_exec (h : exec i s = compareA (aluSize src) src s) :
    ∃ t, exec i s = .next t ∧
      FlagsAre (s.src8 src = s.a) true (s.a.toNat % 16 < (s.src8 src).toNat % 16)
        (s.a.toNat < (s.src8 src).toNat) t ∧
      RegsKept [] s t ∧ Frame (aluSize src) (s.aluReads src) [] s t := by
  rw [compareA, advance_src8, advance_a, sub8_v_beq_zero_eq] at h
  refine ⟨_, h, flagsAre_setFlags _ _ _ _ _, ?_, (Frame.afterSrc8 s _ src).setFlags _ _ _ _⟩
  exact ((regsKept_advance s _).trans (regsKept_afterSrc8 _ src)).trans (regsKept_setFlags _ _ _ _ _)

end Shapes

/-- Settles O22: each form writes `add8` of A and its source, the carry in being none or flag C. -/
theorem addAndAdc : Obligations.AddAndAdc := by
  intro src s
  cases src with
  | reg r | imm n | ind =>
    exact ⟨⟨.of_aluEncoding 0 rfl rfl, addsToA_of_exec (f := fun a b _ => add8 a b false) rfl rfl⟩,
      ⟨.of_aluEncoding 1 rfl rfl, addsToA_of_exec (f := add8) rfl rfl⟩⟩

/-- Settles O23: each form writes `sub8` of A and its source, the borrow in being none or flag C. -/
theorem subAndSbc : Obligations.SubAndSbc := by
  intro src s
  cases src with
  | reg r | imm n | ind =>
    exact ⟨⟨.of_aluEncoding 2 rfl rfl, subsFromA_of_exec (f := fun a b _ => sub8 a b false) rfl rfl⟩,
      ⟨.of_aluEncoding 3 rfl rfl, subsFromA_of_exec (f := sub8) rfl rfl⟩⟩

/-- Settles O24: each form is the comparison with its source. -/
theorem compareForms : Obligations.CompareForms := by
  intro src s
  cases src with
  | reg r | imm n | ind => exact ⟨.of_aluEncoding 7 rfl rfl, compares_of_exec rfl⟩

end Sys2Proof.Machine
end

section
/-! SUPPORT. Bitwise operations on A, CPL, SCF and CCF (45_logic8.md R220 to R229; 46_bitops.md R241, R242):
an operation on A whose carries do not depend on the operands, the complement of A, and the forms that
write the flags alone. -/

namespace Sys2Proof.Machine

theorem complement_toNat (b : Byte) : (255 - b).toNat = 255 - b.toNat := by
  rw [show 255 - b = ~~~b from BitVec.allOnes_sub_eq_not b, BitVec.toNat_not]

/-! ## What the forms leave -/

section Shapes

variable {i : Instr} {n : Nat} {src : Src8} {z sub half c : Bool} {f : Bool → Bool → Bool}
  {g : Byte → Byte → Byte} {s : State}

/-- A bitwise operation is an operation on A with H fixed and C = 0; `g` acts on each bit as `f`. -/
theorem combinesA_of_exec (h : exec i s = logicA (aluSize src) src half g s)
    (hbit : ∀ a b k, k < 8 → (g a b).getLsbD k = f (a.getLsbD k) (b.getLsbD k)) :
    CombinesA i src half f s := by
  obtain ⟨t, hexec, ⟨ha, hflags⟩, hregs, hframe⟩ :=
    writesA_of_exec (subtract := false) (f := fun a b _ => ⟨g a b, half, false⟩) h rfl
  rw [← ha, beq_zero_eq_decide] at hflags
  exact ⟨t, hexec, fun k hk => ha ▸ hbit s.a (s.src8 src) k hk, hflags, hregs, hframe⟩

/-- An instruction that writes the flags and does nothing else. -/
theorem writesFlags_of_exec (h : exec i s = .next ((s.advance n).setFlags z sub half c)) :
    ∃ t, exec i s = .next t ∧ FlagsAre z sub half c t ∧ RegsKept [] s t ∧ Frame n [] [] s t :=
  ⟨_, h, flagsAre_setFlags _ _ _ _ _, (regsKept_advance s n).trans (regsKept_setFlags _ _ _ _ _),
    (Frame.advance s n).setFlags _ _ _ _⟩

end Shapes

/-- Settles O25: each form is a bitwise operation with its source; H is set by AND alone. -/
theorem logicForms : Obligations.LogicForms := by
  intro src s
  have hand : ∀ a b : Byte, ∀ k < 8, (a &&& b).getLsbD k = (a.getLsbD k && b.getLsbD k) :=
    fun _ _ _ _ => BitVec.getLsbD_and
  have hxor : ∀ a b : Byte, ∀ k < 8, (a ^^^ b).getLsbD k = (a.getLsbD k != b.getLsbD k) :=
    fun _ _ _ _ => BitVec.getLsbD_xor
  have hor : ∀ a b : Byte, ∀ k < 8, (a ||| b).getLsbD k = (a.getLsbD k || b.getLsbD k) :=
    fun _ _ _ _ => BitVec.getLsbD_or
  cases src with
  | reg r | imm n | ind =>
    exact ⟨⟨.of_aluEncoding 4 rfl rfl, combinesA_of_exec rfl hand⟩,
      ⟨.of_aluEncoding 5 rfl rfl, combinesA_of_exec rfl hxor⟩,
      ⟨.of_aluEncoding 6 rfl rfl, combinesA_of_exec rfl hor⟩⟩

/-- Settles O26: CPL writes A and the flags, SCF and CCF the flags; a flag kept is passed on as it
stands. -/
theorem complementAndCarryForms : Obligations.ComplementAndCarryForms := by
  refine fun s => ⟨⟨.of_encode rfl rfl, _, rfl, complement_toNat s.a, flagsAre_setFlags _ _ _ _ _, ?_,
      ((Frame.advance s 1).setReg8 .a _).setFlags _ _ _ _⟩,
    ⟨.of_encode rfl rfl, writesFlags_of_exec rfl⟩, ⟨.of_encode rfl rfl, writesFlags_of_exec rfl⟩⟩
  exact ((regsKept_advance s 1).trans (regsKept_setReg8 _ .a _)).trans (regsKept_setFlags _ _ _ _ _)

end Sys2Proof.Machine
end

section
/-! SUPPORT. BIT, RES and SET (46_bitops.md R235 to R240): a bit as a digit of the byte's number and the
masks bit by bit, then what the forms on a register and on the byte at HL leave. -/

namespace Sys2Proof.Machine

/-! ## Rows -/

/-- The row of a prefixed instruction with a bit number, from its fields (30_encoding.md R96). -/
theorem Row.of_bitEncoding {i : Instr} {u : BitVec 3} {n : Nat} (top : BitVec 2) (low : BitVec 3)
    (hbytes : encode i = [0xCB, opcode3 top u low]) (hcycles : i.mCycles = .always n) :
    Row i [0xCB, 64 * top.toNat + 8 * u.toNat + low.toNat] (.always n) := by
  refine .of_encode ?_ hcycles
  simp [hbytes, opcode3_toNat]

/-! ## Bits of a byte -/

/-- BIT's Z, the complement of the bit, as a test on the byte's binary digit. -/
theorem not_getLsbD_eq_decide (b : Byte) (k : Nat) :
    (!b.getLsbD k) = decide (b.toNat / 2 ^ k % 2 = 0) := by
  rw [BitVec.getLsbD, Nat.testBit_eq_decide_div_mod_eq, ← decide_not, decide_eq_decide,
    Nat.mod_two_not_eq_one]

/-- SET's mask is the one bit `u`. -/
theorem getLsbD_one_shiftLeft (u : BitVec 3) (k : Nat) :
    ((1 : Byte) <<< u.toNat).getLsbD k = decide (k = u.toNat) := by
  rw [show (1 : Byte) <<< u.toNat = BitVec.twoPow 8 u.toNat from rfl, BitVec.getLsbD_twoPow,
    decide_eq_true u.isLt, Bool.true_and, decide_eq_decide, eq_comm]

theorem getLsbD_or_bit (b : Byte) (u : BitVec 3) (k : Nat) :
    (b ||| (1 : Byte) <<< u.toNat).getLsbD k = (decide (k = u.toNat) || b.getLsbD k) := by
  rw [BitVec.getLsbD_or, getLsbD_one_shiftLeft, Bool.or_comm]

theorem getLsbD_and_not_bit (b : Byte) (u : BitVec 3) {k : Nat} (hk : k < 8) :
    (b &&& ~~~((1 : Byte) <<< u.toNat)).getLsbD k = (decide (k ≠ u.toNat) && b.getLsbD k) := by
  rw [BitVec.getLsbD_and, BitVec.getLsbD_not, getLsbD_one_shiftLeft, decide_eq_true hk, Bool.true_and,
    Bool.and_comm, decide_not]

/-! ## What the forms leave -/

theorem exec_bitR8 (u : BitVec 3) (r : Reg8) (s : State) :
    exec (.bitR8 u r) s = .next ((s.advance 2).setFlags
      (decide ((s.reg8 r).toNat / 2 ^ u.toNat % 2 = 0)) false true s.flagC) := by
  have hbody : exec (.bitR8 u r) s = testBit u (.reg r) s := rfl
  simp [hbody, testBit, not_getLsbD_eq_decide]

theorem exec_bitInd (u : BitVec 3) (s : State) :
    exec (.bitInd u) s = .next (((s.advance 2).afterRead s.hl).setFlags
      (decide ((s.readByte s.hl).toNat / 2 ^ u.toNat % 2 = 0)) false true s.flagC) := by
  have hbody : exec (.bitInd u) s = testBit u .ind s := rfl
  simp [hbody, testBit, not_getLsbD_eq_decide]

theorem exec_resR8 (u : BitVec 3) (r : Reg8) (s : State) :
    exec (.resR8 u r) s = .next ((s.advance 2).setReg8 r (s.reg8 r &&& ~~~((1 : Byte) <<< u.toNat))) := by
  rw [← advance_reg8 s 2 r]
  rfl

theorem exec_resInd (u : BitVec 3) (s : State) :
    exec (.resInd u) s = .next (((s.advance 2).afterRead s.hl).writeByte s.hl
      (s.readByte s.hl &&& ~~~((1 : Byte) <<< u.toNat))) := by
  have hbody : exec (.resInd u) s = clearBit u .ind s := rfl
  simp [hbody, clearBit]

theorem exec_setR8 (u : BitVec 3) (r : Reg8) (s : State) :
    exec (.setR8 u r) s = .next ((s.advance 2).setReg8 r (s.reg8 r ||| (1 : Byte) <<< u.toNat)) := by
  rw [← advance_reg8 s 2 r]
  rfl

theorem exec_setInd (u : BitVec 3) (s : State) :
    exec (.setInd u) s = .next (((s.advance 2).afterRead s.hl).writeByte s.hl
      (s.readByte s.hl ||| (1 : Byte) <<< u.toNat)) := by
  have hbody : exec (.setInd u) s = setBit u .ind s := rfl
  simp [hbody, setBit]

section Shapes

variable {i : Instr} {r : Reg8} {v : Byte} {bit : Nat → Bool} {s : State}

/-- An instruction that writes a register and nothing else, the new byte known by its bits. -/
theorem writesBitsR8_of_exec (hbits : ∀ k < 8, v.getLsbD k = bit k)
    (h : exec i s = .next ((s.advance 2).setReg8 r v)) :
    ∃ t, exec i s = .next t ∧ (∀ k < 8, (t.reg8 r).getLsbD k = bit k) ∧
      RegsKept [r] s t ∧ FlagsKept s t ∧ Frame 2 [] [] s t := by
  obtain ⟨t, hexec, hreg, hframe⟩ := writesR8_of_exec h
  exact ⟨t, hexec, hreg ▸ hbits, hframe⟩

/-- An instruction that reads the byte at HL, stores one there and does nothing else, the new byte known
by its bits. -/
theorem rewritesBitsInd_of_exec (hbits : ∀ k < 8, v.getLsbD k = bit k)
    (h : exec i s = .next (((s.advance 2).afterRead s.hl).writeByte s.hl v)) :
    ∃ t v, exec i s = .next t ∧ (∀ k < 8, v.getLsbD k = bit k) ∧
      RegsKept [] s t ∧ FlagsKept s t ∧ Frame 2 [s.hl] [(s.hl, v)] s t := by
  refine ⟨_, v, h, hbits, ?_, by simp [FlagsKept], ((Frame.advance s 2).afterRead s.hl).writeByte s.hl v⟩
  exact ((regsKept_advance s 2).trans (regsKept_afterRead _ s.hl)).trans (regsKept_writeByte _ s.hl v)

end Shapes

/-- Settles O29: only the flags are written, after the read where the byte is at HL. -/
theorem bitTests : Obligations.BitTests := by
  refine ⟨fun u r s => ⟨.of_bitEncoding 1 r.code rfl rfl, writesFlags_of_exec (exec_bitR8 u r s)⟩,
    fun u s => ⟨.of_bitEncoding 1 6 rfl rfl, _, exec_bitInd u s, flagsAre_setFlags _ _ _ _ _, ?_,
      ((Frame.advance s 2).afterRead s.hl).setFlags _ _ _ _⟩⟩
  exact ((regsKept_advance s 2).trans (regsKept_afterRead _ s.hl)).trans (regsKept_setFlags _ _ _ _ _)

/-- Settles O30: the register or the byte at HL is written with one bit masked out or in. -/
theorem bitWrites : Obligations.BitWrites := by
  intro u r s
  have hres : ∀ b : Byte, ∀ k < 8,
      (b &&& ~~~((1 : Byte) <<< u.toNat)).getLsbD k = (decide (k ≠ u.toNat) && b.getLsbD k) :=
    fun b _ hk => getLsbD_and_not_bit b u hk
  have hset : ∀ b : Byte, ∀ k < 8,
      (b ||| (1 : Byte) <<< u.toNat).getLsbD k = (decide (k = u.toNat) || b.getLsbD k) :=
    fun b k _ => getLsbD_or_bit b u k
  exact ⟨⟨.of_bitEncoding 2 r.code rfl rfl, writesBitsR8_of_exec (hres _) (exec_resR8 u r s)⟩,
    ⟨.of_bitEncoding 3 r.code rfl rfl, writesBitsR8_of_exec (hset _) (exec_setR8 u r s)⟩,
    ⟨.of_bitEncoding 2 6 rfl rfl, rewritesBitsInd_of_exec (hres _) (exec_resInd u s)⟩,
    ⟨.of_bitEncoding 3 6 rfl rfl, rewritesBitsInd_of_exec (hset _) (exec_setInd u s)⟩⟩

end Sys2Proof.Machine
end

section
/-! SUPPORT. What a step comes to (60_exceptions.md R313 to R318): the phase it is in, what the wait, the
environment's move and interrupt entry leave, and how an EI under way goes on. -/

namespace Sys2Proof.Machine

/-! ## Requests (R314, R315, R317) -/

/-- The source chosen is pending, and none below it is (R317). -/
theorem lowestPending_eq_some_iff (p : BitVec 5) (i : IrqSource) :
    lowestPending p = some i ↔ p.getLsbD i.bit = true ∧ ∀ k < i.bit, p.getLsbD k = false := by
  cases i <;> revert p <;> decide

theorem pending_getLsbD (s : State) (k : Nat) :
    s.pending.getLsbD k = (decide (k < 5) && s.ie.getLsbD k && s.ifReg.getLsbD k) := by
  rw [State.pending, BitVec.getLsbD_extractLsb', Nat.zero_add, BitVec.getLsbD_and, Bool.and_assoc]

/-- Settles O56: `pending` bit by bit, the five sources by evaluation, and a choice wherever a bit is
set. -/
theorem pendingRequests : Obligations.PendingRequests := by
  refine ⟨pending_getLsbD, ⟨rfl, rfl, rfl, rfl, rfl⟩, ⟨rfl, rfl, rfl, rfl, rfl⟩, fun p hp => ?_⟩
  cases hi : lowestPending p with
  | none => exact absurd ((lowestPending_eq_none p).1 hi) hp
  | some i => exact ⟨i, rfl, (lowestPending_eq_some_iff p i).1 hi⟩

/-! ## The phases (R316) -/

/-- Settles O52: of the four phases one executes, and where the step gets past the waits and takes no
interrupt the other three are excluded. -/
theorem whenAnInstructionRuns : Obligations.WhenAnInstructionRuns := by
  intro s u
  constructor
  · intro h
    rcases prepare_cases s with ⟨hp, -⟩ | ⟨-, ⟨hp, -⟩ | ⟨i, hp, -⟩ | ⟨hp, hruns⟩⟩ <;>
      cases hp.symm.trans h
    exact ⟨hruns, rfl⟩
  · rintro ⟨⟨hbutton, hhalted, hime⟩, rfl⟩
    rcases prepare_cases s with
      ⟨-, hstop, hnone⟩ | ⟨-, ⟨-, hhalt, hzero⟩ | ⟨i, -, hi, -, hne⟩ | ⟨hp, -⟩⟩
    · cases hnone.symm.trans (hbutton hstop)
    · exact absurd hzero (hhalted hhalt)
    · exact absurd (hime hi) hne
    · exact hp

/-- Where an instruction runs, the step is what it answers, completed. -/
theorem step_of_runs {s : State} (h : s.runs) :
    step s = completeStep s.imePending (exec s.awake.fetch.1 s.awake.fetch.2) := by
  rw [step, (whenAnInstructionRuns s s.awake).2 ⟨h, rfl⟩]
  rfl

/-- Settles O57: with the wait kept, the phases that go on are excluded. -/
theorem waitsGoOn : Obligations.WaitsGoOn := by
  refine fun s => ⟨fun hstopped hbutton => ?_, fun hbutton hhalted hzero => ?_⟩
  · rcases step_cases s with ⟨hstep, -⟩ | ⟨hpress, -⟩
    · exact hstep
    · cases hbutton.symm.trans (hpress hstopped)
  · rcases step_cases s with
      ⟨-, hstop, hnone⟩ | ⟨-, ⟨hstep, -⟩ | ⟨i, -, -, -, hne⟩ | ⟨-, -, hrequest, -⟩⟩
    · cases hnone.symm.trans (hbutton hstop)
    · exact hstep
    · exact absurd hzero hne
    · exact absurd hzero (hrequest hhalted)

/-! ## The environment's move (R313) -/

/-- The environment sets bits of IF and clears none. -/
theorem afterEnv_ifReg_getLsbD (s : State) (k : Nat) :
    s.afterEnv.ifReg.getLsbD k =
      (s.ifReg.getLsbD k || (decide (k < 5) && s.envMove.irq.getLsbD k)) := by
  have hset : (s.envMove.irq.zeroExtend 8).getLsbD k = (decide (k < 5) && s.envMove.irq.getLsbD k) := by
    by_cases hk : k < 5
    · simp [hk, Nat.lt_trans hk (by decide : 5 < 8)]
    · simp [hk, BitVec.getLsbD_of_ge _ k (Nat.le_of_not_lt hk)]
  rw [State.afterEnv, BitVec.getLsbD_or, hset]

/-- The fetch keeps all but the count of answers, the parameters among it. -/
theorem fetch_platform_env (s : State) :
    s.fetch.2.platform = s.platform ∧ s.fetch.2.env = s.env := by
  obtain ⟨k, hk⟩ := fetch_state s
  rw [hk]
  exact ⟨rfl, rfl⟩

/-- Settles O51: every phase begins with the environment's move, and nothing after it touches the
schedule or the parameters. -/
theorem environmentMoves : Obligations.EnvironmentMoves := by
  refine fun s => ⟨afterEnv_ifReg_getLsbD s, rfl, fun t h => ?_⟩
  rcases step_cases s with ⟨hstep, -⟩ | ⟨-, ⟨hstep, -⟩ | ⟨i, hstep, -⟩ | ⟨hstep, -⟩⟩
  · cases hstep.symm.trans h
    exact ⟨rfl, rfl⟩
  · cases hstep.symm.trans h
    exact ⟨rfl, rfl⟩
  · cases hstep.symm.trans h
    exact ⟨enterInterrupt_env s.awake i, enterInterrupt_platform s.awake i⟩
  · obtain ⟨v, hexec, rfl⟩ := completeStep_next (hstep.symm.trans h)
    obtain ⟨hplatform, henv⟩ := fetch_platform_env s.awake
    rw [armIme_eq]
    exact ⟨(exec_onlyListed hexec).env.trans henv, (exec_onlyListed hexec).platform.trans hplatform⟩

/-! ## Interrupt entry (R318) -/

/-- The state interrupt entry pushes from has the bytes of one with the request's bit cleared. -/
theorem stores_enterInterrupt (s : State) (i : IrqSource) :
    Stores (pushed s s.pc) { s with ifReg := s.ifReg &&& ~~~((1 : Byte) <<< i.bit) }
      (s.enterInterrupt i) :=
  stores_push16 (s := { s with ifReg := s.ifReg &&& ~~~((1 : Byte) <<< i.bit) })
    (u := ({ s with ime := false, imePending := false } : State).clearRequest i)
    rfl (.refl _) rfl (.refl _)

theorem vector_eq (i : IrqSource) : i.vector = BitVec.ofNat 16 (0x0040 + 8 * i.bit) := by
  cases i <;> rfl

theorem getLsbD_clear_request (v : Byte) (i : IrqSource) (k : Nat) (hk : k < 8) :
    (v &&& ~~~((1 : Byte) <<< i.bit)).getLsbD k = (v.getLsbD k && decide (k ≠ i.bit)) := by
  have hbit : ∀ k < 8, ((1 : Byte) <<< i.bit).getLsbD k = decide (k = i.bit) := by
    cases i <;> decide
  rw [BitVec.getLsbD_and, BitVec.getLsbD_not, hbit k hk, decide_eq_true hk, Bool.true_and, decide_not]

theorem regsKept_enterInterrupt (s : State) (i : IrqSource) : RegsKept [] s (s.enterInterrupt i) := by
  intro r _
  cases r <;> simp [State.reg8]

/-- With IME = 1 and a request pending, no stop kept, the step takes the interrupt chosen. -/
theorem step_of_interrupt {s : State} {i : IrqSource}
    (hbutton : s.stopped = true → s.envMove.button = true) (hime : s.ime = true)
    (hi : lowestPending s.afterEnv.pending = some i) : step s = .next (s.awake.enterInterrupt i) := by
  have hne : s.afterEnv.pending ≠ 0 := fun h0 => by
    cases hi.symm.trans ((lowestPending_eq_none _).2 h0)
  rcases step_cases s with
    ⟨-, hstop, hnone⟩ | ⟨-, ⟨-, -, hzero⟩ | ⟨j, hstep, -, hj, -⟩ | ⟨-, -, -, hzero⟩⟩
  · cases hnone.symm.trans (hbutton hstop)
  · exact absurd hzero hne
  · cases hi.symm.trans hj
    exact hstep
  · exact absurd (hzero hime) hne

/-- Settles O55: the source is the one chosen, and its entry is a push from the state with its bit
cleared. -/
theorem interruptEntry : Obligations.InterruptEntry := by
  intro s i hbutton hime hbit hbelow
  have hi := (lowestPending_eq_some_iff s.afterEnv.pending i).2 ⟨hbit, hbelow⟩
  refine ⟨_, step_of_interrupt hbutton hime hi, vector_eq i, enterInterrupt_sp _ i,
    enterInterrupt_ime _ i, enterInterrupt_imePending _ i, enterInterrupt_halted _ i,
    enterInterrupt_stopped _ i, enterInterrupt_haltBug _ i, enterInterrupt_doubleSpeed _ i,
    enterInterrupt_platform _ i, enterInterrupt_env _ i, enterInterrupt_draws _ i,
    regsKept_enterInterrupt s.awake i, enterInterrupt_f _ i,
    _, getLsbD_clear_request s.afterEnv.ifReg i, ?_⟩
  exact stores_enterInterrupt s.awake i

/-! ## EI's delayed effect (49_misc.md R294) -/

/-- An instruction that runs with an EI under way ends with IME = 1 or an EI under way, unless it is
DI. -/
theorem exec_ime_or_imePending {i : Instr} {s t : State} (h : exec i s = .next t)
    (hpending : s.imePending = true) : (t.ime || t.imePending) = decide (i ≠ .di) := by
  by_cases hc : isControl i = true
  · rcases isControl_cases hc with rfl | rfl | rfl | rfl | ⟨b, rfl⟩
    · cases h
      rfl
    · cases h
      simp
    · cases h
      simp
    · rcases execHalt_next h with ⟨-, -, rfl⟩ | rfl <;> simp [hpending]
    · obtain ⟨-, rfl | rfl⟩ := execStop_next h <;> simp [hpending]
  · have hdi : i ≠ .di := fun hi => hc (hi ▸ rfl)
    obtain ⟨⟨-, hkept, -⟩, -⟩ := (exec_onlyListed h).control (Bool.eq_false_iff.2 hc)
    simp [hkept, hpending, hdi]

/-- Settles O58: with IME = 0 and no wait an instruction runs, and the step's last phase enables what it
leaves under way. -/
theorem eiDelay : Obligations.EiDelay := by
  intro s hime hpending hhalted hstopped
  have hruns : s.runs := ⟨by simp [hstopped], by simp [hhalted], by simp [hime]⟩
  refine ⟨hruns, fun t h => ?_⟩
  rw [step_of_runs hruns, hpending] at h
  obtain ⟨v, hexec, rfl⟩ := completeStep_next h
  obtain ⟨k, hk⟩ := fetch_state s.awake
  have hv := exec_ime_or_imePending hexec (by rw [hk]; exact hpending)
  rw [armIme_eq]
  exact ⟨by simp, by simpa using hv⟩

end Sys2Proof.Machine
end

section
/-! SUPPORT. Fetching (00_scope.md R14; 60_exceptions.md R316 (4)): the calls of Fetch8() read what the
step's fetch reads, and leave what the instruction's own advance leaves. -/

namespace Sys2Proof.Machine

/-! ## One Fetch8() -/

/-- The first fetch is of the byte at PC, whether or not PC moves. -/
theorem codeAddr_zero (s : State) : s.codeAddr 0 = s.pc := by
  rw [codeAddr_eq, nextPc]
  split <;> exact BitVec.add_zero s.pc

/-- Reading bytes moves no address of the instruction's. -/
@[simp] theorem afterRead_codeAddr (s : State) (a : Addr) (k : Nat) :
    (s.afterRead a).codeAddr k = s.codeAddr k := by
  simp [State.codeAddr]

/-- The fetches and a read do not see each other. -/
theorem advance_afterRead (s : State) (n : Nat) (a : Addr) :
    (s.advance n).afterRead a = (s.afterRead a).advance n := by
  rw [afterRead_eq, afterRead_eq, advance_peek]
  rfl

/-- The first Fetch8(): PC moves unless a double read is left, and none is left after it (R14). -/
theorem fetch8_eq (s : State) :
    s.fetch8 = (s.readByte (s.codeAddr 0), (s.afterRead (s.codeAddr 0)).advance 1) := by
  rw [codeAddr_zero]
  unfold State.fetch8 State.advance
  dsimp only
  rw [afterRead_codeAddr]
  cases hbug : s.haltBug <;> simp [State.codeAddr, hbug]

/-- After some fetches the next one is of the byte after theirs. -/
theorem advance_codeAddr_zero (s : State) (k : Nat) : (s.advance k).codeAddr 0 = s.codeAddr k :=
  codeAddr_zero _

/-- One fetch more: only the first one meets a double read. -/
theorem advance_advance_one (s : State) {k : Nat} (hk : 0 < k) :
    (s.advance k).advance 1 = s.advance (k + 1) := by
  have hpc : (s.advance k).codeAddr 1 = s.codeAddr (k + 1) := by
    obtain ⟨m, rfl⟩ := Nat.exists_eq_succ_of_ne_zero hk.ne'
    cases hbug : s.haltBug <;>
      simp [State.codeAddr, hbug, BitVec.ofNat_add, BitVec.add_assoc]
  rw [State.advance, hpc]
  rfl

/-! ## Fetch8() once for each byte -/

theorem fetchMany_one (s : State) :
    State.fetchMany 1 s = ([s.readByte (s.codeAddr 0)], (s.afterRead (s.codeAddr 0)).advance 1) := by
  simp [State.fetchMany, fetch8_eq]

theorem fetchMany_two (s : State) :
    State.fetchMany 2 s =
      ([s.readByte (s.codeAddr 0), (s.afterRead (s.codeAddr 0)).readByte (s.codeAddr 1)],
        ((s.afterRead (s.codeAddr 0)).afterRead (s.codeAddr 1)).advance 2) := by
  simp [State.fetchMany, fetch8_eq, advance_codeAddr_zero, advance_afterRead, advance_advance_one]

theorem fetchMany_three (s : State) :
    State.fetchMany 3 s =
      ([s.readByte (s.codeAddr 0), (s.afterRead (s.codeAddr 0)).readByte (s.codeAddr 1),
          ((s.afterRead (s.codeAddr 0)).afterRead (s.codeAddr 1)).readByte (s.codeAddr 2)],
        (((s.afterRead (s.codeAddr 0)).afterRead (s.codeAddr 1)).afterRead
          (s.codeAddr 2)).advance 3) := by
  simp [State.fetchMany, fetch8_eq, advance_codeAddr_zero, advance_afterRead, advance_advance_one]

/-! ## The step's fetch -/

/-- The instruction fetched is read from the byte at PC and two more. -/
theorem fetch_instr (s : State) : ∃ b1 b2, s.fetch.1 = decodeBytes (s.readByte s.pc) b1 b2 := by
  rw [← codeAddr_zero]
  unfold State.fetch
  dsimp only
  split <;> exact ⟨_, _, rfl⟩

theorem fetch_of_length_one {s : State} (h : instrLength (s.readByte (s.codeAddr 0)) = 1) :
    s.fetch = (decodeBytes (s.readByte (s.codeAddr 0)) 0 0, s.afterRead (s.codeAddr 0)) := by
  rw [State.fetch]
  simp only [h]

theorem fetch_of_length_two {s : State} (h : instrLength (s.readByte (s.codeAddr 0)) = 2) :
    s.fetch =
      (decodeBytes (s.readByte (s.codeAddr 0)) ((s.afterRead (s.codeAddr 0)).readByte (s.codeAddr 1)) 0,
        (s.afterRead (s.codeAddr 0)).afterRead (s.codeAddr 1)) := by
  rw [State.fetch]
  simp only [h]

theorem fetch_of_length_three {s : State} (h : instrLength (s.readByte (s.codeAddr 0)) = 3) :
    s.fetch =
      (decodeBytes (s.readByte (s.codeAddr 0)) ((s.afterRead (s.codeAddr 0)).readByte (s.codeAddr 1))
          (((s.afterRead (s.codeAddr 0)).afterRead (s.codeAddr 1)).readByte (s.codeAddr 2)),
        ((s.afterRead (s.codeAddr 0)).afterRead (s.codeAddr 1)).afterRead (s.codeAddr 2)) := by
  rw [State.fetch]
  simp only [h]

/-- An instruction has one, two or three bytes (30_encoding.md R91, R92). -/
theorem instrLength_cases (b0 : Byte) : instrLength b0 = 1 ∨ instrLength b0 = 2 ∨ instrLength b0 = 3 := by
  unfold instrLength Instr.size
  cases (decodeBytes b0 0 0).format <;> simp [Format.size]

/-- An instruction is read back from its own bytes, as many as the first of them says. -/
theorem encode_bytes (i : Instr) :
    ∃ b0 b1 b2, i = decodeBytes b0 b1 b2 ∧ encode i = [b0, b1, b2].take (instrLength b0) := by
  obtain ⟨b0, b1, b2, hi, hbytes⟩ := decode_eq_ok (decodeOfEncode i [])
  exact ⟨b0, b1, b2, hi, by simpa using hbytes⟩

/-- An instruction is its bytes (R104). -/
theorem encode_injective {i j : Instr} (h : encode i = encode j) : i = j := by
  have hdecode := decodeOfEncode i []
  rw [h, decodeOfEncode j []] at hdecode
  cases hdecode
  rfl

/-- Fetch8() called as often as byte 0 says reads the bytes of the instruction fetched, and goes past
them. -/
theorem fetchMany_eq_fetch (s : State) :
    State.fetchMany (instrLength (s.readByte s.pc)) s =
      (encode s.fetch.1, s.fetch.2.advance (instrLength (s.readByte s.pc))) := by
  rw [← codeAddr_zero]
  rcases instrLength_cases (s.readByte (s.codeAddr 0)) with h | h | h
  · rw [fetch_of_length_one h, encode_decodeBytes, h, fetchMany_one]
    rfl
  · rw [fetch_of_length_two h, encode_decodeBytes, h, fetchMany_two]
    rfl
  · rw [fetch_of_length_three h, encode_decodeBytes, h, fetchMany_three]
    rfl

/-- Bytes fetched that are an instruction's are as many as the one at PC says. -/
theorem length_encode_of_fetchMany {s : State} {i : Instr}
    (h : (State.fetchMany (encode i).length s).1 = encode i) :
    (encode i).length = instrLength (s.readByte s.pc) := by
  obtain ⟨b0, b1, b2, -, hbytes⟩ := encode_bytes i
  rw [hbytes] at h ⊢
  rcases instrLength_cases b0 with hlen | hlen | hlen <;> rw [hlen] at h ⊢ <;>
    obtain rfl : s.readByte s.pc = b0 := congrArg (·.headD 0) h <;> exact hlen.symm

/-- Where Fetch8() reads the bytes of `i`, the step fetches `i`, and the state after is that of the calls
but for PC and the double read. -/
theorem fetch_of_fetchMany {s : State} {i : Instr}
    (h : (State.fetchMany (encode i).length s).1 = encode i) :
    s.fetch.1 = i ∧
      (State.fetchMany (encode i).length s).2 = s.fetch.2.advance (encode i).length := by
  have hlen := length_encode_of_fetchMany h
  rw [hlen, fetchMany_eq_fetch] at h
  exact ⟨encode_injective h, by rw [hlen, fetchMany_eq_fetch]⟩

/-- Settles O53: the calls of Fetch8() and the step's fetch read the same instruction and use up the same
answers. -/
theorem stepRunsDecodedInstruction : Obligations.StepRunsDecodedInstruction := by
  intro s i hruns h
  obtain ⟨hi, hafter⟩ := fetch_of_fetchMany h
  obtain ⟨k, hk⟩ := fetch_state s.awake
  have hstep := step_of_runs hruns
  rw [hk] at hafter
  rw [hi, hk] at hstep
  simp only [hafter, advance_draws]
  refine ⟨trivial, fun t ht => ?_, fun f hf => ?_, fun r hr => ?_⟩
  · rw [hstep, ht, completeStep, State.armIme]
    simp only [Bool.and_eq_true]
  · rw [hstep, hf, completeStep]
  · rw [hstep, hr, completeStep]

/-! ## The double read (49_misc.md R296) -/

/-- The instruction of a double read: byte 0 is also its next byte (R14). -/
def doubleReadInstr (b0 b1 : Byte) : Instr :=
  if instrLength b0 = 1 then decodeBytes b0 0 0
  else if instrLength b0 = 2 then decodeBytes b0 b0 0 else decodeBytes b0 b0 b1

/-- Where a double read is left and the bytes are known, the fetch reads the one at PC twice and uses up
no answer. -/
theorem fetch_of_haltBug {s : State} {b0 b1 : Byte} (hbug : s.haltBug = true)
    (h0 : s.peek s.pc = some b0) (h1 : s.peek (s.pc + 1) = some b1) :
    s.fetch = (doubleReadInstr b0 b1, s) := by
  obtain ⟨hread0, hkept0⟩ := readByte_of_peek h0
  obtain ⟨hread1, hkept1⟩ := readByte_of_peek h1
  have hfirst : s.codeAddr 0 = s.pc := codeAddr_zero s
  have hsecond : s.codeAddr 1 = s.pc := by simp [State.codeAddr, hbug]
  have hthird : s.codeAddr 2 = s.pc + 1 := by simp [State.codeAddr, hbug]
  unfold doubleReadInstr
  rcases instrLength_cases b0 with h | h | h
  · rw [fetch_of_length_one (by rwa [hfirst, hread0]), hfirst, hread0, hkept0, if_pos h]
  · rw [fetch_of_length_two (by rwa [hfirst, hread0]), hfirst, hsecond, hkept0, hread0, hkept0,
      if_neg (by simp [h]), if_pos h]
  · rw [fetch_of_length_three (by rwa [hfirst, hread0]), hfirst, hsecond, hthird, hkept0, hkept0, hread0,
      hread1, hkept1, if_neg (by simp [h]), if_neg (by simp [h])]

/-- No instruction but HALT leaves a double read (10_state.md R32). -/
theorem exec_haltBug {i : Instr} {s t : State} (h : exec i s = .next t) (hi : i ≠ .halt) :
    t.haltBug = false := by
  by_cases hc : isControl i = true
  · rcases isControl_cases hc with rfl | rfl | rfl | rfl | ⟨b, rfl⟩
    · cases h
      rfl
    · cases h
      rfl
    · cases h
      simp
    · exact absurd rfl hi
    · obtain ⟨-, rfl | rfl⟩ := execStop_next h <;> rfl
  · exact ((exec_onlyListed h).control (Bool.eq_false_iff.2 hc)).2

/-- Settles O54: the step fetches the double read's instruction, whose own advance starts one byte
short. -/
theorem haltDoubleRead : Obligations.HaltDoubleRead := by
  intro s b0 b1 hruns hbug h0 h1
  have hstep : step s = completeStep s.imePending (exec (doubleReadInstr b0 b1) s.awake) := by
    rw [step_of_runs hruns, fetch_of_haltBug (s := s.awake) hbug h0 h1]
  refine ⟨hstep, fun t hpc hhalt h => ?_⟩
  obtain ⟨v, hexec, rfl⟩ := completeStep_next (hstep.symm.trans h)
  have hv : v.pc = nextPc (doubleReadInstr b0 b1).size s.awake := (exec_onlyListed hexec).pc hpc
  have hdone : v.haltBug = false := exec_haltBug hexec hhalt
  have hbug' : s.awake.haltBug = true := hbug
  rw [nextPc, if_pos hbug'] at hv
  rw [armIme_eq]
  exact ⟨hv, hdone⟩

end Sys2Proof.Machine
end

section
/-! SUPPORT. The steps that stop (60_exceptions.md R310 to R312): which instruction answers a fault or a
refusal, and that the fetch brings it there. -/

namespace Sys2Proof.Machine

/-! ## HALT and STOP, case by case (49_misc.md R296, R298) -/

theorem exec_halt_of_eiPending {s : State} (hei : s.imePending = true) (hpending : s.pending ≠ 0) :
    exec .halt s = .refused .eiHaltPending :=
  if_pos (by simpa [hei] using hpending)

theorem exec_halt_of_request {s : State} (hei : s.imePending = false) (hime : s.ime = false)
    (hpending : s.pending ≠ 0) : exec .halt s = .next { s.advance 1 with haltBug := true } :=
  (if_neg (by simp [hei])).trans (if_pos (by simpa [hime] using hpending))

theorem exec_halt_of_wait {s : State} (h : (s.imePending = false ∧ s.ime = true) ∨ s.pending = 0) :
    exec .halt s = .next { s.advance 1 with halted := true } := by
  rcases h with ⟨hei, hime⟩ | hzero
  · exact (if_neg (by simp [hei])).trans (if_neg (by simp [hime]))
  · exact (if_neg (by simp [hzero])).trans (if_neg (by simp [hzero]))

theorem exec_stop (b : Byte) (s : State) : exec (.stop b) s = execStop b s := rfl

theorem exec_stop_of_ne_zero {s : State} {b : Byte} (hb : b ≠ 0) :
    exec (.stop b) s = .refused .stopOperand :=
  if_pos hb

theorem exec_stop_of_dmg {s : State} (hmodel : s.platform.model = .dmg) :
    exec (.stop 0) s = .refused .stopOnDmg := by
  rw [exec_stop]
  simp [execStop, hmodel]

theorem exec_stop_of_arm {s : State} (hmodel : s.platform.model = .cgb) (harm : s.key1Arm = true) :
    exec (.stop 0) s =
      .next { s.advance 2 with doubleSpeed := !s.doubleSpeed, key1Arm := false } := by
  rw [exec_stop]
  simp [execStop, hmodel, harm]

theorem exec_stop_of_no_arm {s : State} (hmodel : s.platform.model = .cgb) (harm : s.key1Arm = false) :
    exec (.stop 0) s = .next { s.advance 2 with stopped := true } := by
  rw [exec_stop]
  simp [execStop, hmodel, harm]

/-! ## What an instruction answers -/

/-- An unassigned byte faults on every path (R310). -/
theorem exec_of_unassigned {i : Instr} {b : Byte} (h : i.unassigned? = some b) (s : State) :
    exec i s = .fault (.illegalOpcode b s.pc) := by
  cases i with
  | illegalD3 | illegalDB | illegalDD | illegalE3 | illegalE4 | illegalEB | illegalEC | illegalED
  | illegalF4 | illegalFC | illegalFD =>
    cases h
    rfl
  | _ => cases h

/-- Settles O43: an unassigned row is its byte, and its meaning the fault. -/
theorem unassignedBytesFault : Obligations.UnassignedBytesFault := fun _ _ s h =>
  ⟨(encode_of_unassigned h).1, exec_of_unassigned h s⟩

/-- Every instruction but HALT and STOP goes on, unassigned bytes aside. -/
theorem exec_goes_on {i : Instr} (hassigned : i.unassigned? = none) (hhalt : i ≠ .halt)
    (hstop : ∀ b, i ≠ .stop b) (s : State) : ∃ t, exec i s = .next t := by
  cases i with
  | illegalD3 | illegalDB | illegalDD | illegalE3 | illegalE4 | illegalEB | illegalEC | illegalED
  | illegalF4 | illegalFC | illegalFD => cases hassigned
  | halt => exact absurd rfl hhalt
  | stop b => exact absurd rfl (hstop b)
  | _ => exact ⟨_, rfl⟩

/-- HALT goes on or is refused. -/
theorem exec_halt_cases (s : State) :
    (∃ t, exec .halt s = .next t) ∨
      (exec .halt s = .refused .eiHaltPending ∧ s.imePending = true ∧ s.pending ≠ 0) := by
  by_cases hzero : s.pending = 0
  · exact .inl ⟨_, exec_halt_of_wait (.inr hzero)⟩
  cases hei : s.imePending with
  | true => exact .inr ⟨exec_halt_of_eiPending hei hzero, rfl, hzero⟩
  | false =>
    cases hime : s.ime with
    | true => exact .inl ⟨_, exec_halt_of_wait (.inl ⟨hei, hime⟩)⟩
    | false => exact .inl ⟨_, exec_halt_of_request hei hime hzero⟩

/-- STOP goes on or is refused in one of two ways. -/
theorem exec_stop_cases (b : Byte) (s : State) :
    (∃ t, exec (.stop b) s = .next t) ∨ (exec (.stop b) s = .refused .stopOperand ∧ b ≠ 0) ∨
      (exec (.stop b) s = .refused .stopOnDmg ∧ b = 0 ∧ s.platform.model = .dmg) := by
  by_cases hb : b = 0
  · subst hb
    cases hmodel : s.platform.model with
    | dmg => exact .inr (.inr ⟨exec_stop_of_dmg hmodel, rfl, rfl⟩)
    | cgb =>
      cases harm : s.key1Arm with
      | true => exact .inl ⟨_, exec_stop_of_arm hmodel harm⟩
      | false => exact .inl ⟨_, exec_stop_of_no_arm hmodel harm⟩
  · exact .inr (.inl ⟨exec_stop_of_ne_zero hb, hb⟩)

/-- What an instruction answers: it goes on, or it is one of the listed stops (R310, R311). -/
theorem exec_cases (i : Instr) (s : State) :
    (∃ t, exec i s = .next t) ∨
    (∃ b, exec i s = .fault (.illegalOpcode b s.pc) ∧ i.unassigned? = some b) ∨
    (exec i s = .refused .eiHaltPending ∧ i = .halt ∧ s.imePending = true ∧ s.pending ≠ 0) ∨
    (exec i s = .refused .stopOperand ∧ ∃ b, i = .stop b ∧ b ≠ 0) ∨
    (exec i s = .refused .stopOnDmg ∧ i = .stop 0 ∧ s.platform.model = .dmg) := by
  by_cases hhalt : i = .halt
  · subst hhalt
    rcases exec_halt_cases s with hnext | ⟨h, hei, hpending⟩
    · exact .inl hnext
    · exact .inr (.inr (.inl ⟨h, rfl, hei, hpending⟩))
  by_cases hstop : ∃ b, i = .stop b
  · obtain ⟨b, rfl⟩ := hstop
    rcases exec_stop_cases b s with hnext | ⟨h, hb⟩ | ⟨h, rfl, hmodel⟩
    · exact .inl hnext
    · exact .inr (.inr (.inr (.inl ⟨h, b, rfl, hb⟩)))
    · exact .inr (.inr (.inr (.inr ⟨h, rfl, hmodel⟩)))
  cases hassigned : i.unassigned? with
  | none => exact .inl (exec_goes_on hassigned hhalt (fun b hb => hstop ⟨b, hb⟩) s)
  | some b => exact .inr (.inl ⟨b, exec_of_unassigned hassigned s, rfl⟩)

theorem exec_fault_iff {i : Instr} {s : State} {b : Byte} {a : Addr} :
    exec i s = .fault (.illegalOpcode b a) ↔ i.unassigned? = some b ∧ a = s.pc := by
  constructor
  · intro h
    rcases exec_cases i s with ⟨t, h'⟩ | ⟨c, h', hc⟩ | ⟨h', -⟩ | ⟨h', -⟩ | ⟨h', -⟩ <;>
      cases h'.symm.trans h
    exact ⟨hc, rfl⟩
  · rintro ⟨hb, rfl⟩
    exact exec_of_unassigned hb s

theorem exec_eiHaltPending_iff {i : Instr} {s : State} :
    exec i s = .refused .eiHaltPending ↔ i = .halt ∧ s.imePending = true ∧ s.pending ≠ 0 := by
  constructor
  · intro h
    rcases exec_cases i s with ⟨t, h'⟩ | ⟨c, h', -⟩ | ⟨h', hhalt⟩ | ⟨h', -⟩ | ⟨h', -⟩ <;>
      cases h'.symm.trans h
    exact hhalt
  · rintro ⟨rfl, hei, hpending⟩
    exact exec_halt_of_eiPending hei hpending

theorem exec_stopOperand_iff {i : Instr} {s : State} :
    exec i s = .refused .stopOperand ↔ ∃ b, i = .stop b ∧ b ≠ 0 := by
  constructor
  · intro h
    rcases exec_cases i s with ⟨t, h'⟩ | ⟨c, h', -⟩ | ⟨h', -⟩ | ⟨h', hstop⟩ | ⟨h', -⟩ <;>
      cases h'.symm.trans h
    exact hstop
  · rintro ⟨b, rfl, hb⟩
    exact exec_stop_of_ne_zero hb

theorem exec_stopOnDmg_iff {i : Instr} {s : State} :
    exec i s = .refused .stopOnDmg ↔ i = .stop 0 ∧ s.platform.model = .dmg := by
  constructor
  · intro h
    rcases exec_cases i s with ⟨t, h'⟩ | ⟨c, h', -⟩ | ⟨h', -⟩ | ⟨h', -⟩ | ⟨h', hstop⟩ <;>
      cases h'.symm.trans h
    exact hstop
  · rintro ⟨rfl, hmodel⟩
    exact exec_stop_of_dmg hmodel

/-- The refusals are the three listed (R311). -/
theorem exec_refused {i : Instr} {s : State} {r : Refusal} (h : exec i s = .refused r) :
    r = .eiHaltPending ∨ r = .stopOperand ∨ r = .stopOnDmg := by
  rcases exec_cases i s with ⟨t, h'⟩ | ⟨c, h', -⟩ | ⟨h', -⟩ | ⟨h', -⟩ | ⟨h', -⟩ <;>
    cases h'.symm.trans h <;> simp

/-! ## What a step answers -/

/-- Completing a step makes no stop and takes none away (R316 (5)). -/
theorem completeStep_eq_iff {arm : Bool} {x r : Result} (hr : ∀ t, r ≠ .next t) :
    completeStep arm x = r ↔ x = r := by
  cases x with
  | next t => exact ⟨fun h => absurd h.symm (hr _), fun h => absurd h.symm (hr _)⟩
  | fault f => exact Iff.rfl
  | refused r => exact Iff.rfl

/-- A step stops exactly where an instruction runs and stops: the waits and interrupt entry go on. -/
theorem step_eq_iff_of_stop {s : State} {r : Result} (hr : ∀ t, r ≠ .next t) :
    step s = r ↔ s.runs ∧ exec s.awake.fetch.1 s.awake.fetch.2 = r := by
  constructor
  · intro h
    rcases step_cases s with ⟨hstep, -⟩ | ⟨-, ⟨hstep, -⟩ | ⟨i, hstep, -⟩ | ⟨hstep, hruns⟩⟩
    · exact absurd (h.symm.trans hstep) (hr _)
    · exact absurd (h.symm.trans hstep) (hr _)
    · exact absurd (h.symm.trans hstep) (hr _)
    · exact ⟨hruns, (completeStep_eq_iff hr).1 (hstep.symm.trans h)⟩
  · rintro ⟨hruns, h⟩
    rw [step_of_runs hruns, completeStep_eq_iff hr, h]

theorem step_fault_iff {s : State} {f : Fault} :
    step s = .fault f ↔ s.runs ∧ exec s.awake.fetch.1 s.awake.fetch.2 = .fault f :=
  step_eq_iff_of_stop nofun

theorem step_refused_iff {s : State} {r : Refusal} :
    step s = .refused r ↔ s.runs ∧ exec s.awake.fetch.1 s.awake.fetch.2 = .refused r :=
  step_eq_iff_of_stop nofun

/-- The instruction fetched is an unassigned row exactly when the byte at PC is one of the eleven
(30_encoding.md R101). -/
theorem fetch_unassigned_iff (s : State) (b : Byte) :
    s.fetch.1.unassigned? = some b ↔ s.readByte s.pc = b ∧ b ∈ unassignedBytes := by
  obtain ⟨b1, b2, hfetch⟩ := fetch_instr s
  rw [hfetch]
  constructor
  · intro h
    obtain ⟨rfl, hmem⟩ := eq_of_unassigned_decodeBytes h
    exact ⟨rfl, hmem⟩
  · rintro ⟨rfl, hmem⟩
    exact decodeBytes_unassigned hmem b1 b2

/-- Settles O60: a step stops where the instruction fetched does, and the fetch leaves all that decides it
but the count of answers. -/
theorem onlyListedStops : Obligations.OnlyListedStops := by
  intro s
  obtain ⟨k, hk⟩ := fetch_state s.awake
  have hpc : s.awake.fetch.2.pc = s.pc := by rw [hk]; rfl
  have hei : s.awake.fetch.2.imePending = s.imePending := by rw [hk]; rfl
  have hpending : s.awake.fetch.2.pending = s.awake.pending := by rw [hk]; rfl
  have hplatform : s.awake.fetch.2.platform = s.platform := by rw [hk]; rfl
  refine ⟨fun b a => ?_, ?_, ?_, ?_, fun r h => exec_refused (step_refused_iff.1 h).2⟩
  · rw [step_fault_iff, exec_fault_iff, fetch_unassigned_iff, hpc]
    exact and_congr_right fun _ => and_comm
  · rw [step_refused_iff, exec_eiHaltPending_iff, hei, hpending]
  · rw [step_refused_iff, exec_stopOperand_iff]
  · rw [step_refused_iff, exec_stopOnDmg_iff, hplatform]

end Sys2Proof.Machine
end

section
/-! SUPPORT. 16-bit loads and arithmetic (47_loads16_arith16.md R250 to R260): the frame of a word stored,
`addSp` and `add16` as arithmetic, then what the forms leave. -/

namespace Sys2Proof.Machine

/-! ## Rows and frames -/

/-- The row of an instruction with an n16, low byte first (30_encoding.md R92, R97). -/
theorem Row.of_n16Encoding {i : Instr} {cycles : MCycles} (op : Byte) (w : Word)
    (hbytes : encode i = [op, lo8 w, hi8 w]) (hcycles : i.mCycles = cycles) :
    Row i [op.toNat, w.toNat % 256, w.toNat / 256] cycles := by
  refine .of_encode ?_ hcycles
  simp [hbytes, lo8_toNat, hi8_toNat]

/-- A word stored, after the fetches: its low byte, then its high byte at the next address (20_memory.md
R64). -/
theorem Frame.writeWord (s : State) (n : Nat) (a : Addr) (w : Word) :
    Frame n [] [(a, BitVec.ofNat 8 (w.toNat % 256)), (a + 1, BitVec.ofNat 8 (w.toNat / 256))] s
      ((s.advance n).writeWord a w) :=
  frame_iff.2 ⟨writeWord_flow _ a w, by simp [Reads, State.writeWord],
    (SameBytes.stores_nil (.refl s)).of_nil (Frame.advance s n).2.1 (stores_writeWord _ a w)⟩

theorem regsKept_writeWord (s : State) (a : Addr) (w : Word) : RegsKept [] s (s.writeWord a w) :=
  (regsKept_writeByte s a _).trans (regsKept_writeByte _ (a + 1) _)

theorem FrameSp.setFlags {n : Nat} {sp : Word} {reads : List Addr} {stores : List (Addr × Byte)}
    {s t : State} (hframe : FrameSp n sp reads stores s t) (z sub half c : Bool) :
    FrameSp n sp reads stores s (t.setFlags z sub half c) :=
  hframe.congr (setFlags_flow t z sub half c) (.refl t) rfl

/-! ## The additions as arithmetic (R254, R258) -/

/-- The flags of `addsp` are those of the unsigned addition; its word is the signed one. -/
theorem addSp_eq (sp : Word) (e : Byte) :
    addSp sp e = ⟨displaced sp e, 15 < sp.toNat % 16 + e.toNat % 16, 255 < sp.toNat % 256 + e.toNat⟩ := by
  rw [addSp, displaced_eq]

theorem add16_w_toNat (a b : Word) : (add16 a b).w.toNat = (a.toNat + b.toNat) % 65536 :=
  BitVec.toNat_ofNat ..

/-! ## What the forms leave -/

section Shapes

variable {i : Instr} {n : Nat} {w : Word} {z sub half c : Bool} {s : State}

/-- An instruction that writes HL and the flags. -/
theorem writesHlAndFlags_of_exec
    (h : exec i s = .next (((s.advance n).setReg16 .hl w).setFlags z sub half c)) :
    ∃ t, exec i s = .next t ∧ t.hl = w ∧ FlagsAre z sub half c t ∧
      RegsKept [.h, .l] s t ∧ Frame n [] [] s t :=
  ⟨_, h, setReg16_hl_same (s.advance n) w, flagsAre_setFlags _ _ _ _ _,
    ((regsKept_advance s n).trans (regsKept_setReg16 _ .hl w)).trans (regsKept_setFlags _ _ _ _ _),
    ((Frame.advance s n).setReg16 .hl w).setFlags _ _ _ _⟩

/-- An instruction that writes SP and the flags. -/
theorem writesSpAndFlags_of_exec
    (h : exec i s = .next (((s.advance n).setSp w).setFlags z sub half c)) :
    ∃ t, exec i s = .next t ∧ FlagsAre z sub half c t ∧
      RegsKept [] s t ∧ FrameSp n w [] [] s t :=
  ⟨_, h, flagsAre_setFlags _ _ _ _ _,
    ((regsKept_advance s n).trans (regsKept_setSp _ w)).trans (regsKept_setFlags _ _ _ _ _),
    ((Frame.advance s n).setSp w).setFlags _ _ _ _⟩

/-- An instruction that adds `w` to HL. -/
theorem addsToHl_of_exec (h : exec i s = .next (((s.advance 1).setReg16 .hl (add16 s.hl w).w).setFlags
      s.flagZ false (add16 s.hl w).h (add16 s.hl w).c)) :
    ∃ t, exec i s = .next t ∧
      (t.hl.toNat = (s.hl.toNat + w.toNat) % 65536 ∧
        FlagsAre s.flagZ false (4095 < s.hl.toNat % 4096 + w.toNat % 4096)
          (65535 < s.hl.toNat + w.toNat) t) ∧
      RegsKept [.h, .l] s t ∧ Frame 1 [] [] s t := by
  obtain ⟨t, hexec, hhl, hflags, hframe⟩ := writesHlAndFlags_of_exec h
  exact ⟨t, hexec, ⟨hhl ▸ add16_w_toNat s.hl w, hflags⟩, hframe⟩

end Shapes

/-- Settles O31: after the fetches the pair or SP is written, and no flag. -/
theorem loadWords : Obligations.LoadWords := by
  refine fun p w s => ⟨⟨.of_encode ?_ rfl, writesR16_of_exec rfl⟩,
    ⟨.of_n16Encoding 0x31 w rfl rfl, writesSp_of_exec rfl⟩, ⟨.of_encode rfl rfl, writesSp_of_exec rfl⟩⟩
  simp [encode, opcodePair_toNat, lo8_toNat, hi8_toNat, Nat.add_comm]

/-- Settles O32: after the fetches SP is stored as a word. -/
theorem storeSp : Obligations.StoreSp := by
  refine fun w s => ⟨.of_n16Encoding 0x08 w rfl rfl, _, rfl,
    (regsKept_advance s 3).trans (regsKept_writeWord _ w _), by simp [FlagsKept, State.writeWord], ?_⟩
  rw [← add_one_eq_ofNat]
  exact Frame.writeWord s 3 w s.sp

theorem exec_ldHlSpE8 (e : Byte) (s : State) :
    exec (.ldHlSpE8 e) s = .next (((s.advance 2).setReg16 .hl (addSp s.sp e).w).setFlags
      false false (addSp s.sp e).h (addSp s.sp e).c) := rfl

theorem exec_addSpE8 (e : Byte) (s : State) :
    exec (.addSpE8 e) s = .next (((s.advance 2).setSp (addSp s.sp e).w).setFlags
      false false (addSp s.sp e).h (addSp s.sp e).c) := rfl

/-- Settles O33: after the fetches HL or SP and the flags are written with what `addSp` gives. -/
theorem addSignedToSp : Obligations.AddSignedToSp := by
  intro e s
  have hhl := exec_ldHlSpE8 e s
  have hsp := exec_addSpE8 e s
  rw [addSp_eq] at hhl hsp
  exact ⟨⟨.of_encode rfl rfl, writesHlAndFlags_of_exec hhl⟩,
    ⟨.of_encode rfl rfl, writesSpAndFlags_of_exec hsp⟩⟩

/-- Settles O34: after the fetch HL and the flags are written with what `add16` gives. -/
theorem addToHl : Obligations.AddToHl := by
  refine fun p s => ⟨⟨.of_encode ?_ rfl, ?_⟩, ⟨.of_encode rfl rfl, addsToHl_of_exec rfl⟩⟩
  · simp [encode, opcodePair_toNat, Nat.add_comm]
  · rw [← advance_reg16 s 1 p]
    exact addsToHl_of_exec rfl

end Sys2Proof.Machine
end

section
/-! SUPPORT. Jumps, calls and returns (48_control.md R265 to R276): what the three shared bodies leave,
taken or not, and RETI. -/

namespace Sys2Proof.Machine

/-! ## Rows -/

/-- The fields of an opcode with a condition code as digits, the condition's last (30_encoding.md R93). -/
theorem opcodeCond_toNat (top : BitVec 3) (cc : BitVec 2) (low : BitVec 3) :
    (opcodeCond top cc low).toNat = 32 * top.toNat + low.toNat + 8 * cc.toNat := by
  rw [opcodeCond, append_toNat, append_toNat]
  omega

/-! ## What the shared bodies leave -/

theorem regsKept_setPc (s : State) (w : Addr) : RegsKept [] s (s.setPc w) :=
  fun r _ => setPc_reg8 s w r

/-- The condition tested after the fetches is the one on F as a number (R265). -/
theorem advance_cond_eq_condHolds (s : State) (n : Nat) (cc : Cond) :
    (s.advance n).cond cc = condHolds cc s :=
  (advance_cond s n cc).trans (cond_eq_condHolds s cc)

section Shapes

variable {i : Instr} {n : Nat} {taken : State → Bool} {b : Bool} {s : State}

/-- A jump, taken or not, writes PC only. -/
theorem jumpsTo_of_exec {target : State → Word} {a : Addr} (h : exec i s = jumpTo n taken target s)
    (hb : taken (s.advance n) = b) (ha : target (s.advance n) = a) : JumpsTo i n b a s := by
  obtain ⟨hsp, hcontrol, hpc, hreads, hstores⟩ := Frame.advance s n
  have hregs := regsKept_advance s n
  rw [jumpTo, hb, ha] at h
  cases b with
  | false => exact ⟨_, h, hpc, hsp, hcontrol, hregs, rfl, hreads, hstores⟩
  | true =>
    exact ⟨_, h, ⟨rfl, rfl⟩, hsp, hcontrol, hregs.trans (regsKept_setPc _ a), rfl, hreads, hstores⟩

/-- A call pushes the address its fetches leave, where it is taken. -/
theorem callsTo_of_exec {a : Addr} (h : exec i s = callTo n taken a s)
    (hb : taken (s.advance n) = b) : CallsTo i n b a s := by
  have hregs := regsKept_advance s n
  rw [callTo, hb, advance_pc, codeAddr_eq] at h
  cases b with
  | false =>
    obtain ⟨hsp, hcontrol, hpc, hreads, hstores⟩ := Frame.advance s n
    exact ⟨_, h, hpc, hsp, hcontrol, hregs, rfl, hreads, hstores⟩
  | true =>
    obtain ⟨hsp, hcontrol, ⟨-, hbug⟩, hreads, hstores⟩ := FrameSp.push16 s n (nextPc n s)
    exact ⟨_, h, ⟨rfl, hbug⟩, hsp, hcontrol,
      (hregs.trans (regsKept_push16 _ _)).trans (regsKept_setPc _ a), push16_f _ _, hreads, hstores⟩

/-- A return pops PC, where it is taken. -/
theorem returnsIf_of_exec (h : exec i s = returnIf taken s) (hb : taken (s.advance 1) = b) :
    ReturnsIf i b s := by
  have hregs := regsKept_advance s 1
  rw [returnIf, hb, advance_popWord] at h
  cases b with
  | false =>
    obtain ⟨hsp, hcontrol, ⟨hpc, hbug⟩, hreads, hstores⟩ := Frame.advance s 1
    exact ⟨_, h, hpc, hbug, hsp, hcontrol, hregs, rfl, hreads, hstores⟩
  | true =>
    obtain ⟨hsp, hcontrol, ⟨-, hbug⟩, hreads, hstores⟩ := FrameSp.afterPop s 1
    exact ⟨_, h, joinBytes_toNat _ _, hbug, hsp, hcontrol,
      (hregs.trans (regsKept_afterPop _)).trans (regsKept_setPc _ _), afterPop_f _, hreads, hstores⟩

end Shapes

/-- JR's target is counted from the address its fetches leave (R268). -/
theorem advance_pc_add_sext16 (s : State) (n : Nat) (e : Byte) :
    (s.advance n).pc + sext16 e = displaced (nextPc n s) e := by
  rw [displaced_eq, advance_pc, codeAddr_eq]

theorem exec_jr (e : Byte) (s : State) :
    exec (.jr e) s = jumpTo 2 (fun _ => true) (fun s => s.pc + sext16 e) s := rfl

theorem exec_jrCc (cc : Cond) (e : Byte) (s : State) :
    exec (.jrCc cc e) s = jumpTo 2 (fun s => s.cond cc) (fun s => s.pc + sext16 e) s := rfl

theorem exec_jp (w : Word) (s : State) : exec (.jp w) s = jumpTo 3 (fun _ => true) (fun _ => w) s := rfl

theorem exec_jpHl (s : State) : exec .jpHl s = jumpTo 1 (fun _ => true) (fun s => s.hl) s := rfl

theorem exec_jpCc (cc : Cond) (w : Word) (s : State) :
    exec (.jpCc cc w) s = jumpTo 3 (fun s => s.cond cc) (fun _ => w) s := rfl

theorem exec_callCc (cc : Cond) (w : Word) (s : State) :
    exec (.callCc cc w) s = callTo 3 (fun s => s.cond cc) w s := rfl

theorem exec_ret (s : State) : exec .ret s = returnIf (fun _ => true) s := rfl

theorem exec_retCc (cc : Cond) (s : State) : exec (.retCc cc) s = returnIf (fun s => s.cond cc) s := rfl

/-- Settles O35: each is the shared jump, always taken. -/
theorem jumps : Obligations.Jumps := fun w e s =>
  ⟨⟨.of_n16Encoding 0xC3 w rfl rfl, jumpsTo_of_exec (exec_jp w s) rfl rfl⟩,
    ⟨.of_encode rfl rfl, jumpsTo_of_exec (exec_jpHl s) rfl rfl⟩,
    ⟨.of_encode rfl rfl, jumpsTo_of_exec (exec_jr e s) rfl (advance_pc_add_sext16 s 2 e)⟩⟩

/-- Settles O36: each is the shared jump, taken on its condition. -/
theorem conditionalJumps : Obligations.ConditionalJumps := by
  refine fun cc w e s => ⟨⟨.of_encode ?_ rfl,
      jumpsTo_of_exec (exec_jpCc cc w s) (advance_cond_eq_condHolds s 3 cc) rfl⟩,
    ⟨.of_encode ?_ rfl, jumpsTo_of_exec (exec_jrCc cc e s) (advance_cond_eq_condHolds s 2 cc)
      (advance_pc_add_sext16 s 2 e)⟩⟩
  · simp [encode, opcodeCond_toNat, lo8_toNat, hi8_toNat]
  · simp [encode, opcodeCond_toNat]

/-- Settles O37: each is the shared call, on its condition or always. -/
theorem calls : Obligations.Calls := by
  refine fun cc w t s => ⟨⟨.of_n16Encoding 0xCD w rfl rfl, callsTo_of_exec (exec_call w s) rfl⟩,
    ⟨.of_encode ?_ rfl, callsTo_of_exec (exec_callCc cc w s) (advance_cond_eq_condHolds s 3 cc)⟩,
    ⟨.of_encode ?_ rfl, ?_⟩⟩
  · simp [encode, opcodeCond_toNat, lo8_toNat, hi8_toNat]
  · simp [encode, opcode3_toNat]
    omega
  · rw [← rst_target]
    exact callsTo_of_exec (exec_rst t s) rfl

/-- Settles O38: each is the shared return, on its condition or always. -/
theorem returns : Obligations.Returns := by
  refine fun cc s => ⟨⟨.of_encode rfl rfl, returnsIf_of_exec (exec_ret s) rfl⟩,
    ⟨.of_encode ?_ rfl, returnsIf_of_exec (exec_retCc cc s) (advance_cond_eq_condHolds s 1 cc)⟩⟩
  simp [encode, opcodeCond_toNat]

/-! ## RETI (R276, R319) -/

theorem exec_reti (s : State) : exec .reti s = .next (s.advance 1).returnFromInterrupt := rfl

theorem regsKept_returnFromInterrupt (s : State) : RegsKept [] s s.returnFromInterrupt := by
  intro r _
  cases r <;> simp [State.reg8]

/-- What a pop returns and uses up depends on the bytes, SP and the answers used up before. -/
theorem pop_congr {s t : State} (hbytes : SameBytes s t) (hsp : t.sp = s.sp)
    (hdraws : t.draws = s.draws) :
    t.popWord = s.popWord ∧ t.afterPop.draws = s.afterPop.draws := by
  constructor
  · simp [popWord_eq, State.popHigh, State.popLow, State.readByte, hbytes.peek, hsp, hdraws]
  · simp [afterPop_eq, hbytes.peek, hsp, hdraws]

/-- RETI's return writes PC and ime_pending whatever they were. -/
theorem returnFromInterrupt_congr (s : State) (w : Addr) (pending : Bool) :
    ({ s with pc := w, imePending := pending } : State).returnFromInterrupt = s.returnFromInterrupt := by
  have hbytes : SameBytes s { s with pc := w, imePending := pending } := ⟨rfl, rfl, rfl, rfl, rfl, rfl⟩
  obtain ⟨hword, hdraws⟩ := pop_congr hbytes rfl rfl
  simp [State.returnFromInterrupt, State.setPc, hword, hdraws]

/-- RET with an EI under way, then the delayed enabling, returns as RETI does. -/
theorem completeStep_exec_ret {s : State} (h : s.imePending = true) :
    completeStep true (exec .ret s) = .next (s.advance 1).returnFromInterrupt := by
  rw [exec_ret, returnIf, if_pos rfl, completeStep, armIme_eq]
  simp [State.returnFromInterrupt, h]

/-- EI, then RET, then the delayed enabling (R319). -/
theorem exec_ei_ret (s : State) :
    ∃ u, exec .ei s = .next u ∧ completeStep u.imePending (exec .ret u) = exec .reti s := by
  refine ⟨_, rfl, ?_⟩
  rw [completeStep_exec_ret rfl, exec_reti]
  exact congrArg _ (returnFromInterrupt_congr (s.advance 1) _ true)

/-- Settles O39: RETI is a return that also writes IME and ime_pending. -/
theorem retiReturnsAndEnables : Obligations.RetiReturnsAndEnables := by
  intro s
  obtain ⟨hsp, ⟨-, -, hhalted, hstopped, hspeed, hplatform, henv⟩, ⟨-, hbug⟩, hreads, hstores⟩ :=
    FrameSp.afterPop s 1
  have hbytes : SameBytes (s.advance 1).afterPop (s.advance 1).returnFromInterrupt := by simp [SameBytes]
  refine ⟨.of_encode rfl rfl, ⟨_, exec_reti s, ?_, hbug, hsp, rfl, rfl, hhalted, hstopped, hspeed,
    hplatform, henv, ?_, ?_, hreads, hbytes.stores hstores⟩, exec_ei_ret s⟩
  · rw [returnFromInterrupt_pc, advance_popWord, popWord_eq, joinBytes_toNat]
  · exact (regsKept_advance s 1).trans (regsKept_returnFromInterrupt _)
  · exact returnFromInterrupt_f (s.advance 1)

end Sys2Proof.Machine
end

section
/-! SUPPORT. DAA (49_misc.md R290): its adjustment as arithmetic, and that it makes a sum or a difference
of two decimal bytes decimal again. -/

namespace Sys2Proof.Machine

/-! ## The adjustment as arithmetic -/

/-- What DAA adds to or subtracts from the low digit: both tests are on the old A (R290). -/
def daaLow (a : Nat) (n h : Bool) : Nat := if h = true ∨ (n = false ∧ a % 16 > 9) then 6 else 0

/-- What DAA adds to or subtracts from the high digit. -/
def daaHigh (a : Nat) (n c : Bool) : Nat := if c = true ∨ (n = false ∧ a > 0x99) then 0x60 else 0

/-- The number DAA leaves in A. -/
def daaValue (a : Nat) (n h c : Bool) : Nat :=
  if n = false then (a + (daaLow a n h + daaHigh a n c)) % 256
  else (a + 256 - (daaLow a n h + daaHigh a n c)) % 256

/-- Flag C after DAA: it may rise after an addition. -/
def daaCarry (a : Nat) (n c : Bool) : Bool := c || (!n && decide (a > 0x99))

/-- The machine's adjustment is the one of R290's arithmetic. -/
theorem daaAdjust_toNat (a : Byte) (n h c : Bool) :
    (daaAdjust a n h c).1.toNat = daaValue a.toNat n h c ∧
      (daaAdjust a n h c).2 = daaCarry a.toNat n c := by
  cases n with
  | false =>
    refine ⟨?_, by simp [daaAdjust, daaCarry]⟩
    simp only [daaAdjust, daaValue, daaLow, daaHigh, Bool.false_eq_true, if_false, if_true, true_and,
      BitVec.toNat_add, Bool.or_eq_true, decide_eq_true_eq, gt_iff_lt]
    split <;> split <;> rfl
  | true =>
    refine ⟨?_, by simp [daaAdjust, daaCarry]⟩
    have ha := a.isLt
    simp only [daaAdjust, daaValue, daaLow, daaHigh, Bool.true_eq_false, if_false, if_true, false_and,
      or_false, BitVec.toNat_sub]
    split <;> split <;> simp <;> omega

theorem exec_daa (s : State) :
    exec .daa s = .next (((s.advance 1).setReg8 .a (daaAdjust s.a s.flagN s.flagH s.flagC).1).setFlags
      (decide (daaValue s.a.toNat s.flagN s.flagH s.flagC = 0)) s.flagN false
      (daaCarry s.a.toNat s.flagN s.flagC)) := by
  obtain ⟨hvalue, hcarry⟩ := daaAdjust_toNat s.a s.flagN s.flagH s.flagC
  rw [← hvalue, ← beq_zero_eq_decide, ← hcarry]
  rfl

/-- Settles O27: after the fetch A and the flags are written with what the adjustment gives. -/
theorem daaAdjusts : Obligations.DaaAdjusts := by
  intro s
  obtain ⟨hvalue, -⟩ := daaAdjust_toNat s.a s.flagN s.flagH s.flagC
  exact ⟨.of_encode rfl rfl, _, exec_daa s, ⟨hvalue, flagsAre_setFlags _ _ _ _ _⟩,
    ((regsKept_advance s 1).trans (regsKept_setReg8 _ .a _)).trans (regsKept_setFlags _ _ _ _ _),
    ((Frame.advance s 1).setReg8 .a _).setFlags _ _ _ _⟩

/-! ## Decimal bytes (00_scope.md R17) -/

section Digits

variable {x y k : Nat}

/-- The low digits carry in decimal where H or the test on the low digit says so. -/
theorem bcd_add_low (hk : k ≤ 1) :
    (15 < bcd x % 16 + bcd y % 16 + k ∨ (bcd x + bcd y + k) % 256 % 16 > 9) ↔
      10 ≤ x % 10 + y % 10 + k := by
  unfold bcd
  omega

/-- The sum passes 99 in decimal where C or the test on A says so. -/
theorem bcd_add_high (hx : x < 100) (hy : y < 100) (hk : k ≤ 1) :
    (255 < bcd x + bcd y + k ∨ (bcd x + bcd y + k) % 256 > 0x99) ↔ 100 ≤ x + y + k := by
  have hbyte : (255 < bcd x + bcd y + k ∨ (bcd x + bcd y + k) % 256 > 0x99) ↔
      0x99 < bcd x + bcd y + k := by
    unfold bcd
    omega
  rw [hbyte]
  unfold bcd
  omega

/-- DAA after a sum of two decimal bytes and a carry: each digit that passes 9 is corrected. -/
theorem daaValue_add (hx : x < 100) (hy : y < 100) (hk : k ≤ 1) :
    daaValue ((bcd x + bcd y + k) % 256) false (15 < bcd x % 16 + bcd y % 16 + k)
      (255 < bcd x + bcd y + k) = bcd ((x + y + k) % 100) := by
  simp only [daaValue, daaLow, daaHigh, decide_eq_true_eq, true_and, if_true, bcd_add_low hk,
    bcd_add_high hx hy hk]
  unfold bcd
  split <;> split <;> omega

theorem daaCarry_add (hx : x < 100) (hy : y < 100) (hk : k ≤ 1) :
    daaCarry ((bcd x + bcd y + k) % 256) false (255 < bcd x + bcd y + k) =
      decide (100 ≤ x + y + k) := by
  rw [← decide_eq_decide.2 (bcd_add_high hx hy hk), Bool.decide_or]
  rfl

/-- The low digits borrow in decimal where H says so. -/
theorem bcd_sub_low (hk : k ≤ 1) : bcd x % 16 < bcd y % 16 + k ↔ x % 10 < y % 10 + k := by
  unfold bcd
  omega

/-- The difference is below 0 in decimal where C says so. -/
theorem bcd_sub_high (hk : k ≤ 1) : bcd x < bcd y + k ↔ x < y + k := by
  unfold bcd
  omega

/-- DAA after a difference of two decimal bytes and a borrow: each digit that borrowed is corrected. -/
theorem daaValue_sub (hx : x < 100) (hy : y < 100) (hk : k ≤ 1) :
    daaValue ((bcd x + 256 - bcd y - k) % 256) true (bcd x % 16 < bcd y % 16 + k) (bcd x < bcd y + k) =
      bcd ((x + 100 - y - k) % 100) := by
  simp only [daaValue, daaLow, daaHigh, decide_eq_true_eq, Bool.true_eq_false, false_and, or_false,
    if_false, bcd_sub_low hk, bcd_sub_high hk]
  unfold bcd
  split <;> split <;> omega

end Digits

/-! ## An operation on A, then DAA -/

/-- DAA after `add8` of two decimal bytes is the decimal sum, C its hundreds. -/
theorem daa_add8 {a b : Byte} {x y : Nat} (cin : Bool) (hx : x < 100) (hy : y < 100)
    (ha : a.toNat = bcd x) (hb : b.toNat = bcd y) :
    daaValue (add8 a b cin).v.toNat false (add8 a b cin).h (add8 a b cin).c =
        bcd ((x + y + cin.toNat) % 100) ∧
      daaCarry (add8 a b cin).v.toNat false (add8 a b cin).c = decide (100 ≤ x + y + cin.toNat) := by
  rw [add8_v_toNat]
  simp only [add8, ha, hb]
  exact ⟨daaValue_add hx hy cin.toNat_le, daaCarry_add hx hy cin.toNat_le⟩

/-- DAA after `sub8` of two decimal bytes is the decimal difference, C its borrow. -/
theorem daa_sub8 {a b : Byte} {x y : Nat} (cin : Bool) (hx : x < 100) (hy : y < 100)
    (ha : a.toNat = bcd x) (hb : b.toNat = bcd y) :
    daaValue (sub8 a b cin).v.toNat true (sub8 a b cin).h (sub8 a b cin).c =
        bcd ((x + 100 - y - cin.toNat) % 100) ∧
      daaCarry (sub8 a b cin).v.toNat true (sub8 a b cin).c = decide (x < y + cin.toNat) := by
  have hcin := cin.toNat_le
  have hv : (sub8 a b cin).v.toNat = (a.toNat + 256 - b.toNat - cin.toNat) % 256 := by
    have hsub := sub8_v_toNat a b cin
    have hbyte := b.isLt
    omega
  rw [hv]
  simp only [sub8, ha, hb]
  refine ⟨daaValue_sub hx hy hcin, ?_⟩
  rw [daaCarry, Bool.not_true, Bool.false_and, Bool.or_false, decide_eq_decide]
  exact bcd_sub_high hcin

/-- DAA reads A, N, H and C as the operation before it left them. -/
theorem aluA_daa {i : Instr} {b : Byte} {sub : Bool} {f : Byte → Byte → Bool → Result8} {r : Result8}
    {s : State} {v : Nat} {c : Bool} (h : exec i s = aluA 2 (.imm b) sub f s)
    (hr : f s.a b s.flagC = r)
    (hdaa : daaValue r.v.toNat sub r.h r.c = v ∧ daaCarry r.v.toNat sub r.c = c) :
    ∃ t u, exec i s = .next t ∧ exec .daa t = .next u ∧ u.a.toNat = v ∧ u.flagC = c := by
  subst hr
  obtain ⟨rfl, rfl⟩ := hdaa
  refine ⟨_, _, h, exec_daa _, ?_, ?_⟩
  · rw [setFlags_a, setReg8_a_same, (daaAdjust_toNat _ _ _ _).1]
    simp
  · simp

/-- Settles O28: each operation is `add8` or `sub8` of the two decimal bytes, which DAA makes decimal
again. -/
theorem daaIsDecimal : Obligations.DaaIsDecimal := by
  intro s n x y hx hy ha hn
  exact ⟨aluA_daa (f := fun a b _ => add8 a b false) rfl rfl (daa_add8 false hx hy ha hn),
    aluA_daa (f := add8) rfl rfl (daa_add8 s.flagC hx hy ha hn),
    aluA_daa (f := fun a b _ => sub8 a b false) rfl rfl (daa_sub8 false hx hy ha hn),
    aluA_daa (f := sub8) rfl rfl (daa_sub8 s.flagC hx hy ha hn)⟩

end Sys2Proof.Machine
end

section
/-! SUPPORT. NOP, DI, EI, HALT and STOP (49_misc.md R292 to R300): past the fetches each writes hidden
bits, and STOP's speed switch KEY1. -/

namespace Sys2Proof.Machine

/-- Settles O40: each is its fetch from the state with its hidden bits written. -/
theorem nopDiEi : Obligations.NopDiEi := fun s =>
  ⟨⟨.of_encode rfl rfl, _, rfl, regsKept_advance s 1, rfl, Frame.advance s 1⟩,
    ⟨.of_encode rfl rfl, _, rfl, rfl, rfl, regsKept_advance s 1, rfl,
      Frame.advance { s with ime := false, imePending := false } 1⟩,
    ⟨.of_encode rfl rfl, _, rfl, rfl, rfl, regsKept_advance s 1, rfl,
      Frame.advance { s with imePending := true } 1⟩⟩

/-- Settles O41: the three clauses are the branches of HALT. -/
theorem haltCases : Obligations.HaltCases := by
  refine fun s => ⟨.of_encode rfl rfl, fun ⟨hei, hpending⟩ => exec_halt_of_eiPending hei hpending,
    fun ⟨hei, hime, hpending⟩ => ?_, fun h => ?_⟩
  · obtain ⟨hsp, hcontrol, ⟨hpc, -⟩, hreads, hstores⟩ := Frame.advance s 1
    exact ⟨_, exec_halt_of_request hei hime hpending, rfl, hpc, regsKept_advance s 1, rfl, hsp, hcontrol,
      hreads, hstores⟩
  · exact ⟨_, exec_halt_of_wait h, rfl, regsKept_advance s 1, rfl,
      Frame.advance { s with halted := true } 1⟩

/-- KEY1 of a CGB whose arm bit is clear (10_state.md R34). -/
theorem peek_key1_of_no_arm {s : State} (hmodel : s.platform.model = .cgb) (harm : s.key1Arm = false) :
    s.peek 0xFF4D = some (BitVec.ofNat 8 (128 * s.doubleSpeed.toNat + 126)) := by
  have hpeek : s.peek 0xFF4D = some s.readKey1 := rfl
  rw [hpeek, State.readKey1, hmodel, harm]
  cases s.doubleSpeed <;> rfl

/-- Settles O42: the clauses are the branches of STOP; the speed switch shows in KEY1 alone. -/
theorem stopCases : Obligations.StopCases := by
  refine fun b s => ⟨.of_encode rfl rfl, fun hb => exec_stop_of_ne_zero hb, ?_, ?_, ?_⟩
  · rintro rfl hmodel
    exact exec_stop_of_dmg hmodel
  · rintro rfl hmodel harm
    obtain ⟨hsp, -, hpc, hreads, -⟩ := Frame.advance s 2
    refine ⟨_, exec_stop_of_arm hmodel harm, rfl, rfl, rfl, rfl, rfl, rfl, rfl, rfl, hpc,
      regsKept_advance s 2, rfl, hsp, hreads, peek_key1_of_no_arm hmodel rfl, fun a ha => ?_, rfl, rfl⟩
    exact speedSwitch_changesOnly (s.advance 2) _ _ a fun h => ha (List.mem_singleton.1 h)
  · rintro rfl hmodel harm
    exact ⟨_, exec_stop_of_no_arm hmodel harm, rfl, regsKept_advance s 2, rfl,
      Frame.advance { s with stopped := true } 2⟩

end Sys2Proof.Machine
end

section
/-! SUPPORT. Reset (70_reset_and_hazards.md R350). -/

namespace Sys2Proof.Machine

/-- IF with bits 7..5 set (10_state.md R33). -/
theorem or_E0_toNat (v : Byte) : (v ||| 0xE0).toNat = 224 + v.toNat % 32 := by
  revert v; decide

/-- Settles O48: the record's fields, F and IF with their fixed bits. -/
theorem resetValues : Obligations.ResetValues := by
  refine ⟨fun p r => ?_, fun m => ?_, ?_, ?_, fun r => ⟨rfl, rfl, rfl⟩⟩
  · exact ⟨rfl, and_F0_toNat r.f, rfl, rfl, rfl, rfl, rfl, rfl, rfl, rfl, rfl, rfl, or_E0_toNat r.ifReg,
      rfl, rfl, rfl, rfl, rfl, rfl⟩
  · cases m <;> exact ⟨rfl, rfl, rfl, rfl, rfl, rfl⟩
  · exact ⟨rfl, rfl, rfl, rfl, rfl, rfl, rfl, rfl⟩
  · exact ⟨rfl, rfl, rfl, rfl, rfl, rfl, rfl, rfl⟩

/-- Every start state satisfies the invariant: memory lists nothing, the hidden bits are 0. -/
theorem inv_ofReset (p : Platform) (r : ResetRecord) : (State.ofReset p r).Inv := by
  have hlow : (State.ofReset p r).f.toNat % 16 = 0 := by
    rw [State.ofReset, and_F0_toNat, Nat.mul_mod_left]
  exact (inv_iff _).2 ⟨⟨⟨.nil, nofun⟩, nofun, hlow, or_E0_div_32 r.ifReg⟩,
    .of_haltBug_eq_false rfl (.inl rfl) fun _ => rfl⟩

/-- Settles O49: State.reset is a start state by definition. -/
theorem resetInvariant : Obligations.ResetInvariant := ⟨inv_ofReset, rfl, rfl⟩

end Sys2Proof.Machine
end
